-- ==== Sys2Proof/Word.lean ====
section
/-! DEFINITION. The widths of the jclock core's registers and the one arithmetic operation it has, "plus one"
(spec 10 R25, 40 R97). -/

namespace Sys2Proof

/-- An operation word, `w[7:0]` (30 R70). -/
abbrev OpWord := BitVec 8

/-- One BCD digit, the width of a digit field and of the `bcd` bus (10 R25). -/
abbrev Digit := BitVec 4

/-- A `sec` field: binary seconds (10 R22, R25). -/
abbrev Seconds := BitVec 6

/-- A debounce history register (10 R35). -/
abbrev Hist := BitVec 16

/-- The value of `mode` or `smode` (10 R29, R30). -/
abbrev ModeBits := BitVec 2

/-- The scan phase `ph` (10 R28). -/
abbrev Phase := BitVec 5

/-- `a + 1` on a field, the sum as a number: it is compared before it is stored (00 R11, 40 R97). -/
abbrev plusOne {n : Nat} (v : BitVec n) : Nat := v.toNat + 1

/-- What is stored of a number: its value modulo 2 to the field's width (00 R11, 40 R97). -/
abbrev stored (n a : Nat) : BitVec n := BitVec.ofNat n a

end Sys2Proof
end

