-- ==== Sys2Proof/Syntax.lean ====
section
/-! DEFINITION. The 17 operations of the jclock core and their operands (spec 30 R72, R74). An operand is an
enumeration with one constructor per value R72 allows, so an operand value R72 reserves (instance 3, hold kind 3) is
no term. -/

namespace Sys2Proof

/-- A time counter, the operand `c`: 0 `clock`, 1 `timer` (10 R21, 30 R72). -/
inductive CounterId
  | clock
  | timer
  deriving DecidableEq, Repr, Inhabited

/-- A switch and its debounce instance, the operand `i`: 0 hour-adjust, 1 minute-adjust, 2 mode (10 R35, 30 R72). -/
inductive SwitchId
  | hourAdjust
  | minuteAdjust
  | modeSwitch
  deriving DecidableEq, Repr, Inhabited

/-- A digit position, the operand `pos`: 0 `ten_hour`, 1 `one_hour`, 2 `ten_minute`, 3 `one_minute` (10 R32, 30 R72). -/
inductive DigitPos
  | tenHour
  | oneHour
  | tenMinute
  | oneMinute
  deriving DecidableEq, Repr, Inhabited

/-- A hold kind, the operand `k`: 0 on (`T_ON`), 1 off (`T_OFF`), 2 poll (`T_POLL`) (30 R72). -/
inductive HoldKind
  | on
  | off
  | poll
  deriving DecidableEq, Repr, Inhabited

/-- The operations, one constructor per row of spec/opcode_table.json (30 R74). `ripple` is the operand `r`,
`pressed` the operand `p`. -/
inductive Instr
  | incs (c : CounterId)
  | incm (c : CounterId) (ripple : Bool)
  | inch (c : CounterId)
  | clrt
  | clrs
  | samp (i : SwitchId) (pressed : Bool)
  | sws (i : SwitchId)
  | tick
  | adjh
  | adjm
  | togl
  | ldm
  | sel (pos : DigitPos)
  | dsl (pos : DigitPos)
  | wrd (pos : DigitPos)
  | wrb
  | hld (k : HoldKind)
  deriving DecidableEq, Repr

end Sys2Proof
end

