-- ==== Sys2Proof/Config.lean ====
section
/-! DEFINITION. What the jclock core leaves to an implementation and to its environment: the open parameters of spec
00 R8 and the free values (constants with no body, so no proof can use their value). -/

namespace Sys2Proof

/-- `SEED`, the time `clock` takes at reset (00 R8, 92 D14). `h10*10 + h1` in 0..23 with `h1` in 0..9 is the hour as a
number below 24; the other fields are bounded as R8 says. -/
structure Seed where
  hours : Fin 24
  m10 : Fin 6
  m1 : Fin 10
  sec : Fin 60
  deriving DecidableEq, Repr, Inhabited

/-- The open parameters a rule reads (00 R8). They are fixed through a run (70 R196). -/
structure Params where
  /-- `SEED`. -/
  seed : Seed
  /-- `OFF_DIGIT`. -/
  offDigit : DigitPos
  /-- `OFF_VALUE`. -/
  offValue : Digit
  /-- `SW_ACTIVE_LEVEL[i]` in bit `i`. -/
  swActiveLevel : BitVec 3
  deriving DecidableEq, Repr, Inhabited

/-- What the environment drives between two steps (10 R42, 70 R196): the switch pins' electrical levels are here, before
the platform removes the polarity (20 R55). -/
structure EnvSample where
  rst : Bool
  tick : Bool
  swPin : BitVec 3
  cmdValid : Bool
  cmd : OpWord
  deriving DecidableEq, Repr, Inhabited

/-- DESIGN CHOICE (log 3): the parameters of the machine that `State.reset` starts; any legal values. Safe. -/
opaque Config.params : Params

/-- DESIGN CHOICE (log 1): what the environment drives after the `n`-th draw; any values at all. Safe. -/
opaque Config.env : Nat → EnvSample

/-- DESIGN CHOICE (log 4): the value `bcd` takes at a reset, "unspecified: any 4-bit value" (10 R38). Safe. -/
opaque Config.freeBcd : Nat → Digit

/-- DESIGN CHOICE (log 5): `cmd_fire` after a step that is not a command, which the spec does not state. Safe. -/
opaque Config.freeFire : Nat → Bool

end Sys2Proof
end

