-- ==== Sys2Proof/WellFormed.lean ====
section
/-! DEFINITION. Which operation words are well-formed (spec 30 R75 to R77), written from the list of defined words and
independent of the decoder: a reserved major, a set bit where the format fixes 0, an operand value that is reserved. -/

namespace Sys2Proof

/-- The major field `w[7:4]` (30 R70). -/
def OpWord.major (w : OpWord) : Nat := (w.extractLsb' 4 4).toNat

/-- The minor field `w[3:0]` (30 R70). -/
def OpWord.minor (w : OpWord) : Nat := (w.extractLsb' 0 4).toNat

/-- The major is not one of the wholly reserved `0x0` and `0xB` (30 R73). -/
def OpWord.majorOk (w : OpWord) : Bool := w.major != 0x0 && w.major != 0xB

/-- The minor holds no operand value that R72 reserves: instance 3 in SAMP (`0x63`, `0x67`) and SWS (`0x73`), hold
kind 3 (`0xF3`) (30 R74, R77). -/
def OpWord.operandOk (w : OpWord) : Bool :=
  match w.major with
  | 0x6 | 0x7 | 0xF => w.minor % 4 != 3
  | _ => true

/-- The bits the word's format fixes have their values: the minors R75 lists for the major, operand values aside. -/
def OpWord.fixedOk (w : OpWord) : Bool :=
  match w.major with
  | 0x1 | 0x3 | 0x9 => w.minor < 2
  | 0x2 | 0x7 | 0xF => w.minor < 4
  | 0x4 => w.minor == 1
  | 0x5 | 0x8 | 0xA | 0xC => w.minor == 0
  | 0x6 | 0xD => w.minor < 8
  | 0xE => w.minor < 5
  | _ => true

/-- A well-formed operation word: one of the 40 defined words of 30 R75. -/
def OpWord.wellFormed (w : OpWord) : Bool := w.majorOk && w.operandOk && w.fixedOk

end Sys2Proof
end

