-- ==== Sys2Proof/Decode.lean ====
section
/-! DEFINITION. The decoder, total on the 256 operation words, and the encoder (spec 30 R70 to R79). The decoder reads the
table of R74 row by row; the encoder is written from the word column of the semantics rules ("0x10 + c"). -/

namespace Sys2Proof

/-- Why a word is reserved (30 R77). -/
inductive Reserved
  /-- Its major is `0x0` or `0xB`. -/
  | major
  /-- A bit its format fixes has the wrong value. -/
  | fixedBits
  /-- It is in a row's excluded list: instance 3 or hold kind 3. -/
  | operand
  deriving DecidableEq, Repr

/-- What a word decodes to: an operation, or a rejection by name (30 R76). -/
inductive Decoded
  | op (i : Instr)
  | reserved (why : Reserved)
  deriving DecidableEq, Repr

/-- The operand `c`, `w[0]` (30 R72). -/
def counterField (w : OpWord) : CounterId := if w[0] then .timer else .clock

/-- The operand `r`, `w[1]` (30 R72). -/
def rippleField (w : OpWord) : Bool := w[1]

/-- The operand `p`, `w[2]` (30 R72). -/
def levelField (w : OpWord) : Bool := w[2]

/-- The operand `i`, `w[1:0]`; 3 is reserved and the rows of R74 exclude it (30 R72). -/
def switchField (w : OpWord) : Option SwitchId :=
  match (w.extractLsb' 0 2).toNat with
  | 0 => some .hourAdjust
  | 1 => some .minuteAdjust
  | 2 => some .modeSwitch
  | _ => none

/-- The digit position with a given number, 0 to 3 (30 R72); a two-bit field holds no other. -/
def posOfNat (n : Nat) : DigitPos :=
  match n with
  | 0 => .tenHour
  | 1 => .oneHour
  | 2 => .tenMinute
  | _ => .oneMinute

/-- The operand `pos`, `w[1:0]` (30 R72). -/
def posField (w : OpWord) : DigitPos := posOfNat (w.extractLsb' 0 2).toNat

/-- The operand `k`, `w[1:0]`; 3 is reserved and the row of R74 excludes it (30 R72). -/
def holdField (w : OpWord) : Option HoldKind :=
  match (w.extractLsb' 0 2).toNat with
  | 0 => some .on
  | 1 => some .off
  | 2 => some .poll
  | _ => none

/-- One row of the table of 30 R74: `mask`, `match`, the excluded words, and the operation with its operand fields. -/
structure Row where
  mask : OpWord
  pattern : OpWord
  excluded : List OpWord
  build : OpWord → Option Instr

/-- `(w AND mask) == match`, the excluded list aside (30 R74). -/
def Row.covers (r : Row) (w : OpWord) : Bool := w &&& r.mask == r.pattern

/-- The word selects the row's operation (30 R74). -/
def Row.selects (r : Row) (w : OpWord) : Bool := r.covers w && !r.excluded.contains w

/-- The 17 rows of 30 R74, in its order. -/
def opcodeRows : List Row :=
  [ ⟨0xFE, 0x10, [], fun w => some (.incs (counterField w))⟩,
    ⟨0xFC, 0x20, [], fun w => some (.incm (counterField w) (rippleField w))⟩,
    ⟨0xFE, 0x30, [], fun w => some (.inch (counterField w))⟩,
    ⟨0xFF, 0x41, [], fun _ => some .clrt⟩,
    ⟨0xFF, 0x50, [], fun _ => some .clrs⟩,
    ⟨0xF8, 0x60, [0x63, 0x67], fun w => (switchField w).map fun i => .samp i (levelField w)⟩,
    ⟨0xFC, 0x70, [0x73], fun w => (switchField w).map .sws⟩,
    ⟨0xFF, 0x80, [], fun _ => some .tick⟩,
    ⟨0xFF, 0x90, [], fun _ => some .adjh⟩,
    ⟨0xFF, 0x91, [], fun _ => some .adjm⟩,
    ⟨0xFF, 0xA0, [], fun _ => some .togl⟩,
    ⟨0xFF, 0xC0, [], fun _ => some .ldm⟩,
    ⟨0xFC, 0xD0, [], fun w => some (.sel (posField w))⟩,
    ⟨0xFC, 0xD4, [], fun w => some (.dsl (posField w))⟩,
    ⟨0xFC, 0xE0, [], fun w => some (.wrd (posField w))⟩,
    ⟨0xFF, 0xE4, [], fun _ => some .wrb⟩,
    ⟨0xFC, 0xF0, [0xF3], fun w => (holdField w).map .hld⟩ ]

/-- The operation a word selects, where a row of 30 R74 selects it. -/
def selected (w : OpWord) : Option Instr := (opcodeRows.find? (·.selects w)).bind (·.build w)

/-- Why a word that selects no row is reserved (30 R77). -/
def reservedWhy (w : OpWord) : Reserved :=
  if !w.majorOk then .major
  else if opcodeRows.any (·.covers w) then .operand
  else .fixedBits

/-- Decode a word: at most one row matches; if none does, the word is reserved (30 R76). -/
def decode (w : OpWord) : Decoded :=
  match selected w with
  | some i => .op i
  | none => .reserved (reservedWhy w)

/-- The number of a counter (30 R72). -/
def CounterId.num : CounterId → Nat
  | .clock => 0
  | .timer => 1

/-- The number of a switch and its debounce instance (30 R72). -/
def SwitchId.num : SwitchId → Nat
  | .hourAdjust => 0
  | .minuteAdjust => 1
  | .modeSwitch => 2

/-- The number of a digit position (30 R72). -/
def DigitPos.num : DigitPos → Nat
  | .tenHour => 0
  | .oneHour => 1
  | .tenMinute => 2
  | .oneMinute => 3

/-- The number of a hold kind (30 R72). -/
def HoldKind.num : HoldKind → Nat
  | .on => 0
  | .off => 1
  | .poll => 2

/-- The operation word of an operation, by the "Encoding" line of its semantics rule (30 R74, R75). -/
def encode (i : Instr) : OpWord :=
  match i with
  | .incs c => .ofNat 8 (0x10 + c.num)
  | .incm c r => .ofNat 8 (0x20 + 2 * r.toNat + c.num)
  | .inch c => .ofNat 8 (0x30 + c.num)
  | .clrt => 0x41
  | .clrs => 0x50
  | .samp i p => .ofNat 8 (0x60 + 4 * p.toNat + i.num)
  | .sws i => .ofNat 8 (0x70 + i.num)
  | .tick => 0x80
  | .adjh => 0x90
  | .adjm => 0x91
  | .togl => 0xA0
  | .ldm => 0xC0
  | .sel pos => .ofNat 8 (0xD0 + pos.num)
  | .dsl pos => .ofNat 8 (0xD4 + pos.num)
  | .wrd pos => .ofNat 8 (0xE0 + pos.num)
  | .wrb => 0xE4
  | .hld k => .ofNat 8 (0xF0 + k.num)

/-- The written form of an operation (30 R82): its mnemonic, then its operands as decimal numbers. -/
def Instr.written (i : Instr) : String :=
  match i with
  | .incs c => "INCS " ++ c.num.repr
  | .incm c r => "INCM " ++ c.num.repr ++ "," ++ r.toNat.repr
  | .inch c => "INCH " ++ c.num.repr
  | .clrt => "CLRT"
  | .clrs => "CLRS"
  | .samp i p => "SAMP " ++ i.num.repr ++ "," ++ p.toNat.repr
  | .sws i => "SWS " ++ i.num.repr
  | .tick => "TICK"
  | .adjh => "ADJH"
  | .adjm => "ADJM"
  | .togl => "TOGL"
  | .ldm => "LDM"
  | .sel pos => "SEL " ++ pos.num.repr
  | .dsl pos => "DSL " ++ pos.num.repr
  | .wrd pos => "WRD " ++ pos.num.repr
  | .wrb => "WRB"
  | .hld k => "HLD " ++ k.num.repr

/-- The instruction the decoder reads from an instruction of `nbits` bits with the value `w`; an operation word is one
byte (30 R70), and a bit above `nbits` is 0. -/
def decodeTableWord (nbits w : Nat) : Option Instr :=
  match decode (.ofNat 8 (w % 2 ^ nbits)) with
  | .op i => some i
  | .reserved _ => none

end Sys2Proof
end

