-- ==== Sys2Proof/Machine/Parts.lean ====
section
/-! DEFINITION. The parts of the state: a time counter, the input ports, and how the open parameters and the
environment's samples become their values (spec 10 R21, R38, R42, 20 R55). -/

namespace Sys2Proof.Machine

/-- The five fields of a time counter (10 R21): `sec` binary, `m1` one_minute, `m10` ten_minute, `h1` one_hour, `h10`
ten_hour. -/
structure TimeCounter where
  sec : Seconds
  m1 : Digit
  m10 : Digit
  h1 : Digit
  h10 : Digit
  deriving DecidableEq, Repr

/-- A counter that reads 00:00:00. -/
def TimeCounter.zero : TimeCounter := ⟨0, 0, 0, 0, 0⟩

/-- The counter that reads the seed time (10 R38): `h10*10 + h1` is the hour. -/
def seedCounter (d : Seed) : TimeCounter :=
  { sec := .ofNat 6 d.sec.val, m1 := .ofNat 4 d.m1.val, m10 := .ofNat 4 d.m10.val,
    h1 := .ofNat 4 (d.hours.val % 10), h10 := .ofNat 4 (d.hours.val / 10) }

/-- The input ports (10 R42), at the levels the next step reads. -/
structure Ports where
  rst : Bool
  tick : Bool
  /-- `sw_pressed[i]` in bit `i`, the logical level (20 R55). -/
  swPressed : BitVec 3
  cmdValid : Bool
  cmd : OpWord
  deriving DecidableEq, Repr

/-- The platform's derivation of `sw_pressed` (20 R55): bit `i` is 1 when the pin's level equals `SW_ACTIVE_LEVEL[i]`. -/
def pressedLevels (activeLevel pins : BitVec 3) : BitVec 3 := ~~~(pins ^^^ activeLevel)

/-- The ports as the environment drives them, the switch polarity removed (10 R42, 20 R55). -/
def Ports.ofSample (activeLevel : BitVec 3) (e : EnvSample) : Ports :=
  { rst := e.rst, tick := e.tick, swPressed := pressedLevels activeLevel e.swPin, cmdValid := e.cmdValid, cmd := e.cmd }

end Sys2Proof.Machine
end

