-- ==== Sys2Proof/Machine/State.lean ====
section
/-! DEFINITION. The architectural state of the jclock core (spec 10) with its ports, the two reasons a step is refused, and the
state after reset. -/

namespace Sys2Proof.Machine

/-- DisplayMode CLOCK (10 R29). -/
abbrev modeClock : ModeBits := 0

/-- DisplayMode TIMER (10 R29). -/
abbrev modeTimer : ModeBits := 1

/-- DisplayMode OFF (10 R29). -/
abbrev modeOff : ModeBits := 2

/-- The state: the registers of 10 R20, the ports of 10 R42, and the model's own `params` and `draws`. -/
structure State where
  /-- `C[0]`, the counter `clock` (10 R21). -/
  clock : TimeCounter
  /-- `C[1]`, the counter `timer` (10 R21). -/
  timer : TimeCounter
  /-- `H[0]`, the hour-adjust history (10 R35). -/
  histHour : Hist
  /-- `H[1]`, the minute-adjust history (10 R35). -/
  histMinute : Hist
  /-- `H[2]`, the mode switch's history (10 R35). -/
  histMode : Hist
  /-- DisplayMode (10 R29). -/
  mode : ModeBits
  /-- The mode the current scan pass runs under (10 R30). -/
  smode : ModeBits
  /-- `colon_en`, an output (10 R31). -/
  colonEn : Bool
  /-- The digit select lines, bit `pos` for position `pos`, an output (10 R32). -/
  dsel : BitVec 4
  /-- The BCD bus, an output (10 R33). -/
  bcd : Digit
  /-- The scan phase, the program counter (10 R28). -/
  ph : Phase
  /-- The input ports (10 R42). -/
  ports : Ports
  /-- `cmd_fire`, the command port's result bit (10 R42, 30 R80). -/
  cmdFire : Bool
  /-- The model's own (log 3): the open parameters, which no step changes (70 R196). -/
  params : Params
  /-- The model's own (log 1): how many draws from the free values have been made. -/
  draws : Nat
  deriving DecidableEq, Repr

/-- Why a step faults. It has no constructor: "No operation raises an exception, traps, faults or fails" (60 R165). -/
inductive Fault
  deriving DecidableEq, Repr

/-- Why a step is refused. Neither reason is an exception of the hardware (60 R166). -/
inductive Refusal
  /-- An instruction with no meaning yet; no arm of `exec` answers it. Safe. -/
  | notModelled (mnemonic : String)
  /-- A reserved operation word on the command port (30 R78); raised by the step. Safe: the spec gives it no step
  (log 9). -/
  | reservedWord (w : OpWord) (why : Reserved)
  /-- A scanner step at `ph` 29 to 31, where the table has no row (42 R123); raised by the step. Safe: never reached
  (log 9). -/
  | noSequencerRow (ph : Phase)
  deriving DecidableEq, Repr

/-- Every register at its value of 10 R38, with parameters `p`, the ports as the `n`-th draw gives them. `bcd` is
unspecified: the `n`-th free value (log 4), and so is `cmd_fire` (log 5). -/
def State.atReset (p : Params) (n : Nat) : State :=
  { clock := seedCounter p.seed
    timer := .zero
    histHour := 0
    histMinute := 0
    histMode := 0
    mode := modeClock
    smode := modeClock
    colonEn := true
    dsel := 0
    bcd := Config.freeBcd n
    ph := 0
    ports := Ports.ofSample p.swActiveLevel (Config.env n)
    cmdFire := Config.freeFire n
    params := p
    draws := n + 1 }

/-- The machine right after reset (10 R38): a run begins when `rst` is released (70 R190). -/
def State.reset : State :=
  { State.atReset Config.params 0 with
    ports := { Ports.ofSample Config.params.swActiveLevel (Config.env 0) with rst := false } }

end Sys2Proof.Machine
end

