-- ==== Sys2Proof/Machine/Flags.lean ====
section
/-! DEFINITION. The conditions that exist inside one operation and are never stored (spec 10 R34): the carry conditions,
the 24-hour wrap and `fire`. Every carry test is an equality with one number, made on the sum before it is stored
(40 R97, R98). -/

namespace Sys2Proof.Machine

/-- `sec` reaching 60 (40 R90). -/
def secondCarry (sec : Seconds) : Bool := plusOne sec == 60

/-- `m1`, or `h1`, reaching 10 (40 R91, R92). -/
def digitCarry (d : Digit) : Bool := plusOne d == 10

/-- `m10` reaching 6 (40 R91). -/
def tenMinuteCarry (d : Digit) : Bool := plusOne d == 6

/-- The hours of `clock` read 24; `timer` never wraps (40 R92). -/
def wraps24 (c : CounterId) (t : TimeCounter) : Bool := c == .clock && t.h10 == 2 && t.h1 == 4

/-- `FIRE_PATTERN` (00 R7): "its four most significant bits all 1 and every other bit 0". -/
def firePattern : Hist := 0xF000

/-- `fire`, of the new history (43 R150). -/
def fires (h : Hist) : Bool := h == firePattern

end Sys2Proof.Machine
end

