-- ==== Sys2Proof/Machine/Operands.lean ====
section
/-! DEFINITION. What each operand form selects (spec 20 R51): a counter by `c`, a history and a switch by `i`, a select
line or a digit by `pos`; and the counter a mode selects. -/

namespace Sys2Proof.Machine

/-- `C[c]` (00 R10). -/
def State.counter (s : State) (c : CounterId) : TimeCounter :=
  match c with
  | .clock => s.clock
  | .timer => s.timer

/-- `C[c] <- v` (00 R10). -/
def State.setCounter (s : State) (c : CounterId) (v : TimeCounter) : State :=
  match c with
  | .clock => { s with clock := v }
  | .timer => { s with timer := v }

/-- `H[i]` (00 R10). -/
def State.hist (s : State) (i : SwitchId) : Hist :=
  match i with
  | .hourAdjust => s.histHour
  | .minuteAdjust => s.histMinute
  | .modeSwitch => s.histMode

/-- `H[i] <- h` (00 R10). -/
def State.setHist (s : State) (i : SwitchId) (h : Hist) : State :=
  match i with
  | .hourAdjust => { s with histHour := h }
  | .minuteAdjust => { s with histMinute := h }
  | .modeSwitch => { s with histMode := h }

/-- `SwPressed(i)`: the current value of `sw_pressed[i]`; the read has no side effect (20 R55). -/
def State.swPressedAt (s : State) (i : SwitchId) : Bool := s.ports.swPressed.getLsbD i.num

/-- The select line of a digit position, as the bit of `dsel` it is (10 R32). -/
def selectBit (pos : DigitPos) : BitVec 4 := 1#4 <<< pos.num

/-- The digit of a counter that a position shows (42 R124). -/
def TimeCounter.digit (t : TimeCounter) (pos : DigitPos) : Digit :=
  match pos with
  | .tenHour => t.h10
  | .oneHour => t.h1
  | .tenMinute => t.m10
  | .oneMinute => t.m1

/-- The counter a mode value selects: `clock` in CLOCK, `timer` in TIMER, none in OFF and at the value 3
(00 R19, 40 R95, 42 R124). -/
def counterOfMode (m : ModeBits) : Option CounterId :=
  if m = modeClock then some .clock
  else if m = modeTimer then some .timer
  else none

end Sys2Proof.Machine
end

