-- ==== Sys2Proof/Machine/Ops.lean ====
section
/-! DEFINITION. The named operations over counters, histories and outputs that the meanings share: an operation that
another calls (spec 00 R13) is one definition here. There is no memory (20 R50), and no exception to take: the tick's
entry saves nothing and its return restores nothing (60 R165, R169, R170), so taking it is `State.takeTick`. -/

namespace Sys2Proof.Machine

/-- The new hours of INCH before the 24 wrap: `h1` plus one, carrying into `h10` modulo 10 (40 R92). -/
def hourPlusOne (t : TimeCounter) : TimeCounter :=
  if digitCarry t.h1 then { t with h1 := 0, h10 := stored 4 (plusOne t.h10 % 10) }
  else { t with h1 := stored 4 (plusOne t.h1) }

/-- INCH on counter `c` (40 R92): the wrap test reads the values just written, and only `clock` wraps. -/
def incHour (c : CounterId) (t : TimeCounter) : TimeCounter :=
  let u := hourPlusOne t
  if wraps24 c u then { u with h10 := 0, h1 := 0 } else u

/-- INCM on counter `c` (40 R91): on minutes 59 carry into the hours only if `ripple`. -/
def incMinute (c : CounterId) (ripple : Bool) (t : TimeCounter) : TimeCounter :=
  if digitCarry t.m1 then
    if tenMinuteCarry t.m10 then
      let u := { t with m1 := 0, m10 := 0 }
      if ripple then incHour c u else u
    else { t with m1 := 0, m10 := stored 4 (plusOne t.m10) }
  else { t with m1 := stored 4 (plusOne t.m1) }

/-- INCS on counter `c` (40 R90): the carry at 60 is INCM with ripple. -/
def incSecond (c : CounterId) (t : TimeCounter) : TimeCounter :=
  if secondCarry t.sec then incMinute c true { t with sec := 0 }
  else { t with sec := stored 6 (plusOne t.sec) }

/-- `C[c]` replaced by an increment of itself. -/
def State.mapCounter (s : State) (c : CounterId) (f : TimeCounter → TimeCounter) : State :=
  s.setCounter c (f (s.counter c))

/-- CLRT: all five fields of `timer` are 0 (40 R93). -/
def State.clearTimer (s : State) : State := { s with timer := .zero }

/-- CLRS: the seconds of `clock` are 0 (40 R94). -/
def State.clearClockSeconds (s : State) : State := { s with clock := { s.clock with sec := 0 } }

/-- TICK: one more second on the counter `mode` selects, if any (40 R95). It is the whole of the interrupt handler,
entry and return included (60 R169, R170). -/
def State.takeTick (s : State) : State :=
  match counterOfMode s.mode with
  | some c => s.mapCounter c (incSecond c)
  | none => s

/-- `SetColon(b)` (20 R56). -/
def State.setColon (s : State) (b : Bool) : State := { s with colonEn := b }

/-- TOGL: one place round the mode cycle with the transition's side effect; nothing at `mode` 3 (41 R110). -/
def State.toggleMode (s : State) : State :=
  if s.mode = modeClock then { s.clearTimer with mode := modeTimer }
  else if s.mode = modeTimer then { s.setColon false with mode := modeOff }
  else if s.mode = modeOff then { s.setColon true with mode := modeClock }
  else s

/-- The hour-adjust action: CLRS, then INCH 0 (42 R129). -/
def State.adjustHour (s : State) : State := s.clearClockSeconds.mapCounter .clock (incHour .clock)

/-- The minute-adjust action: CLRS, then INCM 0,0 (42 R130). -/
def State.adjustMinute (s : State) : State := s.clearClockSeconds.mapCounter .clock (incMinute .clock false)

/-- `FORCE_MASK` (00 R7): "the three most-significant bits of the register". -/
def forceMask : Hist := 0xE000

/-- The new history of SAMP: shift left by one, OR in 0 for a pressed sample and 1 for another, force bits 15 to 13
(43 R150; the polarity is R151's). -/
def shiftSample (h : Hist) (pressed : Bool) : Hist := h <<< 1 ||| (if pressed then 0 else 1) ||| forceMask

/-- SAMP on instance `i`: the history takes one sample (43 R150); its result is `fires` of the new history. -/
def State.sample (s : State) (i : SwitchId) (pressed : Bool) : State :=
  s.setHist i (shiftSample (s.hist i) pressed)

/-- What switch `i` does when its instance fires (42 R128). -/
def State.switchAction (s : State) (i : SwitchId) : State :=
  match i with
  | .hourAdjust => s.adjustHour
  | .minuteAdjust => s.adjustMinute
  | .modeSwitch => s.toggleMode

/-- SWS on switch `i`: sample the port through the instance and, if it fires, act (42 R128). -/
def State.sampleSwitch (s : State) (i : SwitchId) : State :=
  let t := s.sample i (s.swPressedAt i)
  if fires (t.hist i) then t.switchAction i else t

/-- `SelectDigit(pos)`: `dsel[pos] <- 1`, the other bits kept (20 R52). -/
def State.selectDigit (s : State) (pos : DigitPos) : State := { s with dsel := s.dsel ||| selectBit pos }

/-- `DeselectDigit(pos)`: `dsel[pos] <- 0`, the other bits kept (20 R54). -/
def State.deselectDigit (s : State) (pos : DigitPos) : State := { s with dsel := s.dsel &&& ~~~selectBit pos }

/-- `WriteBcd(v)`: `bcd <- v` (20 R53). -/
def State.writeBcd (s : State) (v : Digit) : State := { s with bcd := v }

/-- WRD: one digit of the counter `smode` names on the bus; nothing when it names none (42 R124). -/
def State.showDigit (s : State) (pos : DigitPos) : State :=
  match counterOfMode s.smode with
  | some c => s.writeBcd ((s.counter c).digit pos)
  | none => s

/-- The Boolean result of an operation performed in `s`: `fire` of SAMP and SWS, 0 of every other (30 R80, 43 R150). -/
def fireResult (i : Instr) (s : State) : Bool :=
  match i with
  | .samp j p => fires (shiftSample (s.hist j) p)
  | .sws j => fires (shiftSample (s.hist j) (s.swPressedAt j))
  | _ => false

end Sys2Proof.Machine
end

