-- ==== Sys2Proof/Machine/Debounce.lean ====
section
/-! DEFINITION. The SwitchDebouncer's operation SAMP (spec 43). -/

namespace Sys2Proof.Machine

/-- SAMP `i`,`p` (43 R150). Its result `fire` is not stored (10 R34): it is `fireResult` of the operation, which SWS
uses and the command port puts on `cmd_fire` (30 R80). -/
def execSamp (i : SwitchId) (pressed : Bool) (s : State) : Host.Outcome State Fault Refusal := .next (s.sample i pressed)

end Sys2Proof.Machine
end

