-- ==== Sys2Proof/Machine/ModeController.lean ====
section
/-! DEFINITION. The ModeController's operation TOGL (spec 41). -/

namespace Sys2Proof.Machine

/-- TOGL (41 R110). -/
def execTogl (s : State) : Host.Outcome State Fault Refusal := .next s.toggleMode

end Sys2Proof.Machine
end

