-- ==== Sys2Proof/Machine/Scanner.lean ====
section
/-! DEFINITION. The DisplayScanner's operations LDM, SEL, DSL, WRD, WRB, HLD, SWS, ADJH and ADJM (spec 42). None writes
`ph`: only the scanner step does (42 R120). -/

namespace Sys2Proof.Machine

/-- LDM (42 R122). -/
def execLdm (s : State) : Host.Outcome State Fault Refusal := .next { s with smode := s.mode }

/-- SEL `pos` (42 R125). -/
def execSel (pos : DigitPos) (s : State) : Host.Outcome State Fault Refusal := .next (s.selectDigit pos)

/-- DSL `pos` (42 R131). -/
def execDsl (pos : DigitPos) (s : State) : Host.Outcome State Fault Refusal := .next (s.deselectDigit pos)

/-- WRD `pos` (42 R124). -/
def execWrd (pos : DigitPos) (s : State) : Host.Outcome State Fault Refusal := .next (s.showDigit pos)

/-- WRB (42 R126): the placeholder `OFF_VALUE`. -/
def execWrb (s : State) : Host.Outcome State Fault Refusal := .next (s.writeBcd s.params.offValue)

/-- HLD `k` (42 R127): no register changes; the three kinds differ only in name, since the model has no time (log 6). -/
def execHld (_ : HoldKind) (s : State) : Host.Outcome State Fault Refusal := .next s

/-- SWS `i` (42 R128). -/
def execSws (i : SwitchId) (s : State) : Host.Outcome State Fault Refusal := .next (s.sampleSwitch i)

/-- ADJH (42 R129). -/
def execAdjh (s : State) : Host.Outcome State Fault Refusal := .next s.adjustHour

/-- ADJM (42 R130). -/
def execAdjm (s : State) : Host.Outcome State Fault Refusal := .next s.adjustMinute

end Sys2Proof.Machine
end

