-- ==== Sys2Proof/Machine/TimeKeeper.lean ====
section
/-! DEFINITION. The TimeKeeper's operations INCS, INCM, INCH, CLRT, CLRS and TICK (spec 40). -/

namespace Sys2Proof.Machine

/-- INCS `c` (40 R90). -/
def execIncs (c : CounterId) (s : State) : Host.Outcome State Fault Refusal := .next (s.mapCounter c (incSecond c))

/-- INCM `c`,`r` (40 R91). -/
def execIncm (c : CounterId) (ripple : Bool) (s : State) : Host.Outcome State Fault Refusal :=
  .next (s.mapCounter c (incMinute c ripple))

/-- INCH `c` (40 R92). -/
def execInch (c : CounterId) (s : State) : Host.Outcome State Fault Refusal := .next (s.mapCounter c (incHour c))

/-- CLRT (40 R93). -/
def execClrt (s : State) : Host.Outcome State Fault Refusal := .next s.clearTimer

/-- CLRS (40 R94). -/
def execClrs (s : State) : Host.Outcome State Fault Refusal := .next s.clearClockSeconds

/-- TICK (40 R95). -/
def execTick (s : State) : Host.Outcome State Fault Refusal := .next s.takeTick

end Sys2Proof.Machine
end

