-- ==== Sys2Proof/Machine/Dispatch.lean ====
section
/-! DEFINITION. The meaning of an operation: one arm per constructor, one direct call each. -/

namespace Sys2Proof.Machine

def exec (i : Instr) (s : State) : Host.Outcome State Fault Refusal :=
  match i with
  | .incs c => Sys2Proof.Machine.execIncs c s
  | .incm c ripple => Sys2Proof.Machine.execIncm c ripple s
  | .inch c => Sys2Proof.Machine.execInch c s
  | .clrt => Sys2Proof.Machine.execClrt s
  | .clrs => Sys2Proof.Machine.execClrs s
  | .samp j pressed => Sys2Proof.Machine.execSamp j pressed s
  | .sws j => Sys2Proof.Machine.execSws j s
  | .tick => Sys2Proof.Machine.execTick s
  | .adjh => Sys2Proof.Machine.execAdjh s
  | .adjm => Sys2Proof.Machine.execAdjm s
  | .togl => Sys2Proof.Machine.execTogl s
  | .ldm => Sys2Proof.Machine.execLdm s
  | .sel pos => Sys2Proof.Machine.execSel pos s
  | .dsl pos => Sys2Proof.Machine.execDsl pos s
  | .wrd pos => Sys2Proof.Machine.execWrd pos s
  | .wrb => Sys2Proof.Machine.execWrb s
  | .hld k => Sys2Proof.Machine.execHld k s

end Sys2Proof.Machine
end

