-- ==== Sys2Proof/Machine/Agents.lean ====
section
/-! DEFINITION. Who performs which operation (spec 30 R80, R81, 42 R120, R121, 60 R168 to R171): the sequencer table, and
the steps of the scanner agent, the tick agent, the command port and the reset. `step` chooses among them. -/

namespace Sys2Proof.Machine

/-- The "Word" column of the sequencer table (42 R121), by `ph`: the top of a pass, the run pass's four windows, the OFF
pass. `d` is `OFF_DIGIT`. -/
def sequencerWords (d : DigitPos) : List OpWord :=
  [0xC0] ++
  [0xD0, 0xE0, 0xF0, 0x70, 0xD4, 0xF1] ++
  [0xD1, 0xE1, 0xF0, 0x71, 0xD5, 0xF1] ++
  [0xD2, 0xE2, 0xF0, 0x72, 0xD6, 0xF1] ++
  [0xD3, 0xE3, 0xF0, 0xD7, 0xF1] ++
  [.ofNat 8 (0xD0 + d.num), 0xE4, 0xF2, 0x72, .ofNat 8 (0xD4 + d.num)]

/-- The word the table gives for `ph`; none for 29 to 31 (42 R121, R123). -/
def sequencerWord (d : DigitPos) (ph : Phase) : Option OpWord := (sequencerWords d)[ph.toNat]?

/-- The "next" column of the sequencer table (42 R121), with `smode` as left by the operation just performed. -/
def nextPhase (ph : Phase) (smode : ModeBits) : Phase :=
  if ph = 0 then (if smode = modeOff then 24 else 1)
  else if ph = 23 ∨ ph = 28 then 0
  else ph + 1

/-- What the environment drives on the ports for the next step (70 R196, log 1). -/
def State.drawnPorts (s : State) : Ports := Ports.ofSample s.params.swActiveLevel (Config.env s.draws)

/-- The end of a step that leaves the registers as in `s`: `cmd_fire` takes the value `fire`, and the environment drives
the ports anew (log 1). `held` keeps a pending command that the step has not performed (log 2). -/
def State.endStep (s : State) (fire held : Bool) : State :=
  { s with
    ports := if held && s.ports.cmdValid then { s.drawnPorts with cmdValid := true, cmd := s.ports.cmd } else s.drawnPorts
    cmdFire := fire
    draws := s.draws + 1 }

/-- Perform an operation and finish the step with `finish`; a fault or a refusal ends it. -/
def perform (i : Instr) (s : State) (finish : State → State) : Host.Outcome State Fault Refusal :=
  match exec i s with
  | .next t => .next (finish t)
  | .fault f => .fault f
  | .refused r => .refused r

/-- A step while `rst` is asserted: every register takes its reset value, no operation is performed, a tick event is
ignored (70 R190). -/
def resetStep (s : State) : Host.Outcome State Fault Refusal := .next (State.atReset s.params s.draws)

/-- The tick agent's step: TICK (40 R95, 60 R168), one for each event: a lost event cannot be expressed (log 7). A command
that is due at the same time waits (log 2); what `cmd_fire` shows is not stated (log 5). -/
def tickStep (s : State) : Host.Outcome State Fault Refusal := perform .tick s (·.endStep (Config.freeFire s.draws) true)

/-- The command port's step: the operation `cmd` names; it never touches `ph`; a reserved word is refused
(30 R78, R80). -/
def commandStep (s : State) : Host.Outcome State Fault Refusal :=
  match decode s.ports.cmd with
  | .op i => perform i s (·.endStep (fireResult i s) false)
  | .reserved why => .refused (.reservedWord s.ports.cmd why)

/-- The scanner agent's step: the table's operation for `ph`, then `ph` to the table's next value (42 R120); refused
where the table has no row (42 R123). What `cmd_fire` shows is not stated (log 5). -/
def scannerStep (s : State) : Host.Outcome State Fault Refusal :=
  match sequencerWord s.params.offDigit s.ph with
  | none => .refused (.noSequencerRow s.ph)
  | some w =>
    match decode w with
    | .op i => perform i s fun t => { t with ph := nextPhase s.ph t.smode }.endStep (Config.freeFire s.draws) false
    | .reserved why => .refused (.reservedWord w why)

/-- The ports with the word `w` on the command port, nothing else due. -/
def Ports.commanding (p : Ports) (w : OpWord) : Ports :=
  { p with rst := false, tick := false, cmdValid := true, cmd := w }

end Sys2Proof.Machine
end

