-- ==== Sys2Proof/Machine/Step.lean ====
section
/-! DEFINITION. One step of the machine (spec 00 R15): which agent's turn it is, by the ports. -/

namespace Sys2Proof.Machine

/-- `rst` first (70 R190), then the tick, which is first when it and another step are due together (20 R62, 60 R171),
then the command port (30 R80), else the scanner (42 R120). -/
def step (s : State) : Host.Outcome State Fault Refusal :=
  if s.ports.rst then resetStep s
  else if s.ports.tick then tickStep s
  else if s.ports.cmdValid then commandStep s
  else scannerStep s

/-- `s` with the operation word `w` (its low `nbits` bits) on the command port, so that the very next step performs it:
the block has no program memory (20 R50), and the port is where a word comes from outside (30 R80, log 8). -/
def State.withFetchWord (s : State) (nbits w : Nat) : State :=
  { s with ports := s.ports.commanding (.ofNat 8 (w % 2 ^ nbits)) }

end Sys2Proof.Machine
end

