-- ==== Sys2Proof/Safety.lean ====
section
/-! DEFINITION. The terms the claims use: what the environment observes, a counter as a number, well-formed states, the
invariant of the scanner, and runs under given inputs (spec 00 R16, 10 R27, 40 R96, 41 R112, 42 R133). -/

namespace Sys2Proof.Machine

/-- The outputs `dsel`, `bcd` and `colon_en`, all that the environment observes (00 R16). -/
def State.outputs (s : State) : BitVec 4 × Digit × Bool := (s.dsel, s.bcd, s.colonEn)

/-- `M`, the minutes of a counter as a number (40 R96). -/
def TimeCounter.minutes (t : TimeCounter) : Nat := t.m10.toNat * 10 + t.m1.toNat

/-- `Hh`, the hours of a counter as a number (40 R96). -/
def TimeCounter.hours (t : TimeCounter) : Nat := t.h10.toNat * 10 + t.h1.toNat

/-- `T`, the whole counter in seconds (40 R96). -/
def TimeCounter.total (t : TimeCounter) : Nat := (t.hours * 60 + t.minutes) * 60 + t.sec.toNat

/-- How many hours counter `c` counts before it is 00 again: 24 for `clock`, 100 for `timer` (40 R96). -/
def hourModulus (c : CounterId) : Nat :=
  match c with
  | .clock => 24
  | .timer => 100

/-- Counter `c` is well-formed: its fields are in the ranges of 10 R27. -/
abbrev TimeCounter.InRange (c : CounterId) (t : TimeCounter) : Prop :=
  t.sec.toNat < 60 ∧ t.m1.toNat < 10 ∧ t.m10.toNat < 6 ∧ t.h1.toNat < 10 ∧ t.h10.toNat < 10 ∧ t.hours < hourModulus c

/-- A history is 0 or has its bits 15, 14 and 13 set (10 R27). -/
abbrev HistFormed (h : Hist) : Prop := h = 0 ∨ h.extractLsb' 13 3 = 7

/-- A well-formed state (10 R27). -/
structure State.WellFormed (s : State) : Prop where
  clock : s.clock.InRange .clock
  timer : s.timer.InRange .timer
  mode : s.mode.toNat ≤ 2
  smode : s.smode.toNat ≤ 2
  ph : s.ph.toNat ≤ 28
  dsel : s.dsel ∈ [0, 1, 2, 4, 8]
  hist : ∀ i, HistFormed (s.hist i)

/-- The select lines between steps, by the phase of the next operation: from the step after a window's SEL to its DSL the
window's own line (42 R121, R133). `d` is `OFF_DIGIT`. -/
def litAt (d : DigitPos) (ph : Phase) : BitVec 4 :=
  if 2 ≤ ph ∧ ph ≤ 5 then 1
  else if 8 ≤ ph ∧ ph ≤ 11 then 2
  else if 14 ≤ ph ∧ ph ≤ 17 then 4
  else if 20 ≤ ph ∧ ph ≤ 22 then 8
  else if 25 ≤ ph ∧ ph ≤ 28 then selectBit d
  else 0

/-- `colon_en` is 0 exactly when `mode` is OFF, and `mode` is a mode (41 R112). -/
abbrev State.ColonFollowsMode (s : State) : Prop := s.mode.toNat ≤ 2 ∧ (s.colonEn = false ↔ s.mode = modeOff)

/-- What holds between the steps of the block: the state is well-formed, a run pass runs under CLOCK or TIMER and an OFF
pass under OFF, the select lines are those of the phase, the colon follows the mode. -/
structure State.ScanInv (s : State) : Prop where
  formed : s.WellFormed
  runPass : 1 ≤ s.ph.toNat → s.ph.toNat ≤ 23 → s.smode ≠ modeOff
  offPass : 24 ≤ s.ph.toNat → s.smode = modeOff
  lit : s.dsel = litAt s.params.offDigit s.ph
  colon : s.ColonFollowsMode

/-- The operations `is` performed one after the other, each by its own meaning. -/
def performAll (is : List Instr) (s : State) : Host.Outcome State Fault Refusal :=
  match is with
  | [] => .next s
  | i :: rest =>
    match exec i s with
    | .next t => performAll rest t
    | .fault f => .fault f
    | .refused r => .refused r

/-- One step per element of `inputs`, the environment driving the ports with it for that step. -/
def runWith (inputs : List Ports) (s : State) : Host.Outcome State Fault Refusal :=
  match inputs with
  | [] => .next s
  | p :: rest =>
    match step { s with ports := p } with
    | .next t => runWith rest t
    | .fault f => .fault f
    | .refused r => .refused r

/-- What the environment observes after each step of such a run, up to the first step that is refused (00 R16). -/
def observedWith (inputs : List Ports) (s : State) : List (BitVec 4 × Digit × Bool) :=
  match inputs with
  | [] => []
  | p :: rest =>
    match step { s with ports := p } with
    | .next t => t.outputs :: observedWith rest t
    | .fault _ => []
    | .refused _ => []

/-- No reset, no tick, no command, no switch pressed. -/
def Ports.quiet : Ports := { rst := false, tick := false, swPressed := 0, cmdValid := false, cmd := 0 }

/-- The block's own input: the test-only command port is not used (30 R80). -/
abbrev Ports.ofBlock (p : Ports) : Prop := p.cmdValid = false

end Sys2Proof.Machine
end

