-- ==== Sys2Proof/Certificates/Slice0/Obligations.lean ====
section
/-! DEFINITION. The statements for the provers. "next" is a next state; an equation with an explicit record update is also
the frame: every field it does not name is unchanged. The block has no memory (spec 20 R50), so no frame speaks of one. -/

open Sys2Proof Sys2Proof.Machine

/-! ### Encoding -/

/-- Decoding the word of an operation gives the operation back, with every operand (30 R72, R74). -/
def Obligations.DecodeOfEncodeIsTheOperation : Prop :=
  ∀ i : Instr, decode (encode i) = .op i

/-- A word that decodes to an operation is that operation's word, and is well-formed: no two words mean the same
(30 R74, R76). -/
def Obligations.EncodeOfDecodeIsTheWord : Prop :=
  ∀ (w : OpWord) (i : Instr), decode w = .op i → encode i = w ∧ w.wellFormed = true

/-- The 40 defined words and what each decodes to (30 R75), and no word selects two rows (30 R74). -/
def Obligations.TheFortyDefinedWords : Prop :=
  (∀ (w : OpWord) (i : Instr), decode w = .op i ↔ (w, i) ∈
    ([(0x10, .incs .clock), (0x11, .incs .timer), (0x20, .incm .clock false), (0x21, .incm .timer false),
      (0x22, .incm .clock true), (0x23, .incm .timer true), (0x30, .inch .clock), (0x31, .inch .timer),
      (0x41, .clrt), (0x50, .clrs),
      (0x60, .samp .hourAdjust false), (0x61, .samp .minuteAdjust false), (0x62, .samp .modeSwitch false),
      (0x64, .samp .hourAdjust true), (0x65, .samp .minuteAdjust true), (0x66, .samp .modeSwitch true),
      (0x70, .sws .hourAdjust), (0x71, .sws .minuteAdjust), (0x72, .sws .modeSwitch),
      (0x80, .tick), (0x90, .adjh), (0x91, .adjm), (0xA0, .togl), (0xC0, .ldm),
      (0xD0, .sel .tenHour), (0xD1, .sel .oneHour), (0xD2, .sel .tenMinute), (0xD3, .sel .oneMinute),
      (0xD4, .dsl .tenHour), (0xD5, .dsl .oneHour), (0xD6, .dsl .tenMinute), (0xD7, .dsl .oneMinute),
      (0xE0, .wrd .tenHour), (0xE1, .wrd .oneHour), (0xE2, .wrd .tenMinute), (0xE3, .wrd .oneMinute),
      (0xE4, .wrb), (0xF0, .hld .on), (0xF1, .hld .off), (0xF2, .hld .poll)] : List (OpWord × Instr))) ∧
  ∀ w : OpWord, (opcodeRows.filter (·.selects w)).length ≤ 1

/-- The 216 reserved words, by the ranges of 30 R77, and the ones that are reserved for their operand value. -/
def Obligations.TheReservedWords : Prop :=
  (∀ w : OpWord, (∃ why, decode w = .reserved why) ↔
    (let n := w.toNat
     n / 16 = 0x0 ∨ n / 16 = 0xB ∨ (0x12 ≤ n ∧ n ≤ 0x1F) ∨ (0x24 ≤ n ∧ n ≤ 0x2F) ∨ (0x32 ≤ n ∧ n ≤ 0x3F) ∨
     n = 0x40 ∨ (0x42 ≤ n ∧ n ≤ 0x4F) ∨ (0x51 ≤ n ∧ n ≤ 0x5F) ∨ n = 0x63 ∨ n = 0x67 ∨ (0x68 ≤ n ∧ n ≤ 0x6F) ∨
     (0x73 ≤ n ∧ n ≤ 0x7F) ∨ (0x81 ≤ n ∧ n ≤ 0x8F) ∨ (0x92 ≤ n ∧ n ≤ 0x9F) ∨ (0xA1 ≤ n ∧ n ≤ 0xAF) ∨
     (0xC1 ≤ n ∧ n ≤ 0xCF) ∨ (0xD8 ≤ n ∧ n ≤ 0xDF) ∨ (0xE5 ≤ n ∧ n ≤ 0xEF) ∨ (0xF3 ≤ n ∧ n ≤ 0xFF))) ∧
  (∀ w : OpWord, decode w = .reserved .operand ↔ w ∈ ([0x63, 0x67, 0x73, 0xF3] : List OpWord)) ∧
  (∀ w : OpWord, decode w = .reserved .major ↔ w.toNat / 16 = 0x0 ∨ w.toNat / 16 = 0xB)

/-- A word of each family, written out bit by bit from the patterns of 30 R74, decodes to its operation. -/
def Obligations.WordsFromThePatternsDecode : Prop :=
  decode 0b00010001 = .op (.incs .timer) ∧ decode 0b00100010 = .op (.incm .clock true) ∧
  decode 0b01100110 = .op (.samp .modeSwitch true) ∧ decode 0b01110001 = .op (.sws .minuteAdjust) ∧
  decode 0b10000000 = .op .tick ∧ decode 0b10100000 = .op .togl ∧
  decode 0b11010110 = .op (.dsl .tenMinute) ∧ decode 0b11100011 = .op (.wrd .oneMinute) ∧
  decode 0b11110010 = .op (.hld .poll)

/-! ### The operations, one by one: encoding, result and frame -/

/-- INCS `c` (40 R90), at every value of `sec`: at 59 it clears the seconds and performs INCM `c`,1; else it adds one
modulo 64. -/
def Obligations.IncsAddsOneSecond : Prop :=
  ∀ (c : CounterId) (s : State),
    decode (.ofNat 8 (0x10 + c.num)) = .op (.incs c) ∧
    if (s.counter c).sec.toNat + 1 = 60 then
      ∃ t, exec (.incm c true) (s.setCounter c { s.counter c with sec := 0 }) = .next t ∧ exec (.incs c) s = .next t
    else
      exec (.incs c) s =
        .next (s.setCounter c { s.counter c with sec := .ofNat 6 (((s.counter c).sec.toNat + 1) % 64) })

/-- INCM `c`,`r` (40 R91), at every value of the minute digits: a carry out of `m10` performs INCH `c` exactly when `r`. -/
def Obligations.IncmAddsOneMinute : Prop :=
  ∀ (c : CounterId) (r : Bool) (s : State),
    decode (.ofNat 8 (0x20 + 2 * r.toNat + c.num)) = .op (.incm c r) ∧
    let t := s.counter c
    if t.m1.toNat + 1 = 10 then
      if t.m10.toNat + 1 = 6 then
        if r then
          ∃ u, exec (.inch c) (s.setCounter c { t with m1 := 0, m10 := 0 }) = .next u ∧ exec (.incm c r) s = .next u
        else exec (.incm c r) s = .next (s.setCounter c { t with m1 := 0, m10 := 0 })
      else
        exec (.incm c r) s = .next (s.setCounter c { t with m1 := 0, m10 := .ofNat 4 ((t.m10.toNat + 1) % 16) })
    else exec (.incm c r) s = .next (s.setCounter c { t with m1 := .ofNat 4 ((t.m1.toNat + 1) % 16) })

/-- INCH `c` (40 R92), at every value of the hour digits; `clock`, and only `clock`, wraps a result of 24 to 00. -/
def Obligations.InchAddsOneHour : Prop :=
  ∀ (c : CounterId) (s : State),
    decode (.ofNat 8 (0x30 + c.num)) = .op (.inch c) ∧
    let t := s.counter c
    let h1 := if t.h1.toNat + 1 = 10 then 0 else (t.h1.toNat + 1) % 16
    let h10 := if t.h1.toNat + 1 = 10 then (t.h10.toNat + 1) % 10 else t.h10.toNat
    if c = .clock ∧ h10 = 2 ∧ h1 = 4 then
      exec (.inch c) s = .next (s.setCounter c { t with h10 := 0, h1 := 0 })
    else exec (.inch c) s = .next (s.setCounter c { t with h10 := .ofNat 4 h10, h1 := .ofNat 4 h1 })

/-- CLRT (40 R93): all five fields of `timer` are 0 and nothing else changes. -/
def Obligations.ClrtZeroesTheTimer : Prop :=
  decode 0x41 = .op .clrt ∧
  ∀ s : State, exec .clrt s = .next { s with timer := { sec := 0, m1 := 0, m10 := 0, h1 := 0, h10 := 0 } }

/-- CLRS (40 R94): the seconds of `clock` are 0 and nothing else changes, in every mode. -/
def Obligations.ClrsClearsTheClocksSeconds : Prop :=
  decode 0x50 = .op .clrs ∧ ∀ s : State, exec .clrs s = .next { s with clock := { s.clock with sec := 0 } }

/-- TICK (40 R95): INCS of the counter `mode` selects; in OFF, and at `mode` 3, nothing changes. -/
def Obligations.TickAdvancesTheActiveCounter : Prop :=
  decode 0x80 = .op .tick ∧
  ∀ s : State,
    if s.mode = 0 then ∃ t, exec (.incs .clock) s = .next t ∧ exec .tick s = .next t
    else if s.mode = 1 then ∃ t, exec (.incs .timer) s = .next t ∧ exec .tick s = .next t
    else exec .tick s = .next s

/-- TOGL (41 R110): CLOCK to TIMER zeroes `timer`, TIMER to OFF clears `colon_en`, OFF to CLOCK sets it; at `mode` 3
nothing changes. -/
def Obligations.ToglAdvancesTheModeCycle : Prop :=
  decode 0xA0 = .op .togl ∧
  ∀ s : State,
    exec .togl s = .next
      (if s.mode = 0 then { s with mode := 1, timer := { sec := 0, m1 := 0, m10 := 0, h1 := 0, h10 := 0 } }
       else if s.mode = 1 then { s with mode := 2, colonEn := false }
       else if s.mode = 2 then { s with mode := 0, colonEn := true }
       else s)

/-- LDM (42 R122): `smode <- mode`; as the scanner step at `ph` 0 it also branches to 24 if the mode is OFF, else to 1. A TICK
or a TOGL after it does not change which pass is running. -/
def Obligations.LdmLatchesTheModeAndBranches : Prop :=
  decode 0xC0 = .op .ldm ∧
  (∀ s : State, exec .ldm s = .next { s with smode := s.mode }) ∧
  (∀ s : State, s.ph = 0 → s.ports.rst = false → s.ports.tick = false → s.ports.cmdValid = false →
    ∃ t, step s = .next t ∧ t.smode = s.mode ∧ t.mode = s.mode ∧ t.ph = if s.mode = 2 then 24 else 1) ∧
  ∀ (s : State) (i : Instr), i = .tick ∨ i = .togl → ∃ t, exec i s = .next t ∧ t.smode = s.smode ∧ t.ph = s.ph

/-- SEL `pos` (42 R125): bit `pos` of `dsel` is 1, the other bits and everything else are kept. -/
def Obligations.SelSetsOneSelectLine : Prop :=
  ∀ (pos : DigitPos) (s : State),
    decode (.ofNat 8 (0xD0 + pos.num)) = .op (.sel pos) ∧
    ∃ d : BitVec 4, exec (.sel pos) s = .next { s with dsel := d } ∧
      ∀ b : Fin 4, d.getLsbD b = (decide (b.val = pos.num) || s.dsel.getLsbD b)

/-- DSL `pos` (42 R131): bit `pos` of `dsel` is 0, the other bits and everything else, `bcd` too, are kept. -/
def Obligations.DslClearsOneSelectLine : Prop :=
  ∀ (pos : DigitPos) (s : State),
    decode (.ofNat 8 (0xD4 + pos.num)) = .op (.dsl pos) ∧
    ∃ d : BitVec 4, exec (.dsl pos) s = .next { s with dsel := d } ∧
      ∀ b : Fin 4, d.getLsbD b = (!decide (b.val = pos.num) && s.dsel.getLsbD b)

/-- WRD `pos` (42 R124): `bcd` takes the digit at `pos` of the counter `smode` (not `mode`) names; where it names none
nothing changes. -/
def Obligations.WrdWritesTheDigitOfTheShownCounter : Prop :=
  ∀ (pos : DigitPos) (s : State),
    decode (.ofNat 8 (0xE0 + pos.num)) = .op (.wrd pos) ∧
    let shown (t : TimeCounter) : Digit :=
      match pos with
      | .tenHour => t.h10
      | .oneHour => t.h1
      | .tenMinute => t.m10
      | .oneMinute => t.m1
    if s.smode = 0 then exec (.wrd pos) s = .next { s with bcd := shown s.clock }
    else if s.smode = 1 then exec (.wrd pos) s = .next { s with bcd := shown s.timer }
    else exec (.wrd pos) s = .next s

/-- WRB (42 R126): `bcd` takes the parameter `OFF_VALUE`. -/
def Obligations.WrbWritesThePlaceholder : Prop :=
  decode 0xE4 = .op .wrb ∧ ∀ s : State, exec .wrb s = .next { s with bcd := s.params.offValue }

/-- HLD `k` (42 R127): no register changes. -/
def Obligations.HldChangesNothing : Prop :=
  ∀ (k : HoldKind) (s : State), decode (.ofNat 8 (0xF0 + k.num)) = .op (.hld k) ∧ exec (.hld k) s = .next s

/-- SWS `i` (42 R128): SAMP of the port's bit `i` on instance `i`; if the new history is the fire pattern, then ADJH, ADJM
or TOGL by `i`. The sequencer samples switch 0 at `ph` 4 and switch 1 at `ph` 10 only, switch 2 at `ph` 16 and 27. -/
def Obligations.SwsSamplesAndActs : Prop :=
  (∀ (i : SwitchId) (s : State),
    decode (.ofNat 8 (0x70 + i.num)) = .op (.sws i) ∧
    ∃ t, exec (.samp i (s.ports.swPressed.getLsbD i.num)) s = .next t ∧
      if t.hist i = 0xF000 then
        ∃ u, exec (.sws i) s = .next u ∧
          exec (match i with | .hourAdjust => .adjh | .minuteAdjust => .adjm | .modeSwitch => .togl) t = .next u
      else exec (.sws i) s = .next t) ∧
  ∀ (d : DigitPos) (ph : Phase),
    (sequencerWord d ph = some 0x70 ↔ ph = 4) ∧ (sequencerWord d ph = some 0x71 ↔ ph = 10) ∧
    (sequencerWord d ph = some 0x72 ↔ ph = 16 ∨ ph = 27)

/-- ADJH (42 R129): CLRS, then INCH 0. -/
def Obligations.AdjhIsClrsThenInch : Prop :=
  decode 0x90 = .op .adjh ∧
  ∀ s : State, ∃ t u, exec .clrs s = .next t ∧ exec (.inch .clock) t = .next u ∧ exec .adjh s = .next u

/-- ADJM (42 R130): CLRS, then INCM 0,0. -/
def Obligations.AdjmIsClrsThenIncm : Prop :=
  decode 0x91 = .op .adjm ∧
  ∀ s : State, ∃ t u, exec .clrs s = .next t ∧ exec (.incm .clock false) t = .next u ∧ exec .adjm s = .next u

/-- SAMP `i`,`p` (43 R150): the history of instance `i` shifts left, takes 0 if pressed and 1 if not (R151), and has its
bits 15 to 13 forced; the operation's result is whether that is `0xF000`. -/
def Obligations.SampShiftsOneSample : Prop :=
  ∀ (i : SwitchId) (p : Bool) (s : State),
    decode (.ofNat 8 (0x60 + 4 * p.toNat + i.num)) = .op (.samp i p) ∧
    let h : BitVec 16 := BitVec.ofNat 16 ((s.hist i).toNat * 2 % 65536) ||| .ofNat 16 (1 - p.toNat) ||| 0xE000
    exec (.samp i p) s = .next (s.setHist i h) ∧ fireResult (.samp i p) s = decide (h = 0xF000)

/-- What writing a counter or a history through the model's access does: the one named register takes the value, every
other register keeps its own (00 R10, 10 R21, R35). -/
def Obligations.RegisterWritesAreDisjoint : Prop :=
  (∀ (s : State) (v : TimeCounter), s.setCounter .clock v = { s with clock := v } ∧
    s.setCounter .timer v = { s with timer := v } ∧ s.counter .clock = s.clock ∧ s.counter .timer = s.timer) ∧
  (∀ (s : State) (h : Hist), s.setHist .hourAdjust h = { s with histHour := h } ∧
    s.setHist .minuteAdjust h = { s with histMinute := h } ∧ s.setHist .modeSwitch h = { s with histMode := h }) ∧
  ∀ s : State, s.hist .hourAdjust = s.histHour ∧ s.hist .minuteAdjust = s.histMinute ∧ s.hist .modeSwitch = s.histMode

/-! ### The agents and the step -/

/-- The command port (30 R80): with no reset and no tick due, a step performs the operation `cmd` decodes to, never
touches `ph`, and puts the operation's result on `cmd_fire` (`fireResult`: `fire` of SAMP and SWS, 0 of every other). The
ports are drawn anew: the model's form of a free environment (log 1). -/
def Obligations.CommandPortStepPerformsTheDecodedWord : Prop :=
  ∀ (s : State) (i : Instr), s.ports.rst = false → s.ports.tick = false → s.ports.cmdValid = true →
    decode s.ports.cmd = .op i →
    ∃ t, exec i s = .next t ∧ t.ph = s.ph ∧
      step s = .next { t with ports := s.drawnPorts, cmdFire := fireResult i s, draws := s.draws + 1 }

/-- `cmd_fire` after a command (30 R80): for SAMP and SWS whether the new history is the fire pattern, for every other
word 0. -/
def Obligations.CommandPortReportsFire : Prop :=
  ∀ (s t : State) (i : Instr), s.ports.rst = false → s.ports.tick = false → s.ports.cmdValid = true →
    decode s.ports.cmd = .op i → step s = .next t →
    match i with
    | .samp j _ => t.cmdFire = decide (t.hist j = 0xF000)
    | .sws j => t.cmdFire = decide (t.hist j = 0xF000)
    | _ => t.cmdFire = false

/-- The scanner agent (42 R120): with nothing else due, a step performs the operation the sequencer's word for `ph`
decodes to, then sets `ph` to the next value, read with `smode` as that operation left it. `cmd_fire` is then the free
value the model gives where the spec states none (log 5), the ports a free environment's (log 1). -/
def Obligations.ScannerStepPerformsTheSequencerWord : Prop :=
  ∀ (s : State) (w : OpWord) (i : Instr),
    s.ports.rst = false → s.ports.tick = false → s.ports.cmdValid = false →
    sequencerWord s.params.offDigit s.ph = some w → decode w = .op i →
    ∃ t, exec i s = .next t ∧
      step s = .next { t with ph := nextPhase s.ph t.smode, ports := s.drawnPorts, cmdFire := Config.freeFire s.draws, draws := s.draws + 1 }

/-- The sequencer table (42 R121): the word and the next phase of every `ph`, 0 to 28; `d` is `OFF_DIGIT`, `m` is `smode`
as the operation leaves it. Past 28 there is no row. -/
def Obligations.TheSequencerTable : Prop :=
  ∀ (d : DigitPos) (m : ModeBits),
    (List.range 29).map (fun n => (sequencerWord d (.ofNat 5 n), (nextPhase (.ofNat 5 n) m).toNat)) =
      [(some 0xC0, if m = 2 then 24 else 1),
       (some 0xD0, 2), (some 0xE0, 3), (some 0xF0, 4), (some 0x70, 5), (some 0xD4, 6), (some 0xF1, 7),
       (some 0xD1, 8), (some 0xE1, 9), (some 0xF0, 10), (some 0x71, 11), (some 0xD5, 12), (some 0xF1, 13),
       (some 0xD2, 14), (some 0xE2, 15), (some 0xF0, 16), (some 0x72, 17), (some 0xD6, 18), (some 0xF1, 19),
       (some 0xD3, 20), (some 0xE3, 21), (some 0xF0, 22), (some 0xD7, 23), (some 0xF1, 0),
       (some (0xD0 + .ofNat 8 d.num), 25), (some 0xE4, 26), (some 0xF2, 27), (some 0x72, 28),
       (some (0xD4 + .ofNat 8 d.num), 0)] ∧
    ∀ ph : Phase, 29 ≤ ph.toNat → sequencerWord d ph = none

/-- The tick agent (60 R168 to R171): with a tick due and no reset, the step is TICK, whatever else is due, and it leaves
`ph` and every other register as TICK does. That a pending command waits is the model's choice (log 2), that the ports are
drawn anew its form of a free environment (log 1), and `cmd_fire` the free value where the spec states none (log 5). -/
def Obligations.TickIsPerformedFirst : Prop :=
  ∀ s : State, s.ports.rst = false → s.ports.tick = true →
    ∃ t, exec .tick s = .next t ∧ t.ph = s.ph ∧ t.smode = s.smode ∧ t.mode = s.mode ∧
      step s = .next
        { t with
          ports := { s.drawnPorts with
            cmdValid := s.ports.cmdValid || s.drawnPorts.cmdValid
            cmd := if s.ports.cmdValid then s.ports.cmd else s.drawnPorts.cmd }
          cmdFire := Config.freeFire s.draws
          draws := s.draws + 1 }

/-- While `rst` is asserted (70 R190) a step gives every register its reset value, whatever else is due; `bcd` is
unspecified; the parameters stay. -/
def Obligations.ResetStepGivesTheResetValues : Prop :=
  ∀ s : State, s.ports.rst = true →
    ∃ t, step s = .next t ∧
      t.clock.hours = s.params.seed.hours ∧ t.clock.h1.toNat < 10 ∧ t.clock.m10.toNat = s.params.seed.m10 ∧
      t.clock.m1.toNat = s.params.seed.m1 ∧ t.clock.sec.toNat = s.params.seed.sec ∧
      t.timer = { sec := 0, m1 := 0, m10 := 0, h1 := 0, h10 := 0 } ∧
      t.histHour = 0 ∧ t.histMinute = 0 ∧ t.histMode = 0 ∧ t.mode = 0 ∧ t.smode = 0 ∧ t.colonEn = true ∧
      t.dsel = 0 ∧ t.ph = 0 ∧ t.params = s.params

/-- The state after reset: every register of the table of 10 R38 but `bcd`, which is unspecified. That `State.reset` has
`rst` released is the model's choice (log 1), made because a run begins when `rst` is released (70 R190). -/
def Obligations.ResetStateHoldsTheResetValues : Prop :=
  let t := State.reset
  t.clock.hours = t.params.seed.hours ∧ t.clock.h1.toNat < 10 ∧ t.clock.m10.toNat = t.params.seed.m10 ∧
  t.clock.m1.toNat = t.params.seed.m1 ∧ t.clock.sec.toNat = t.params.seed.sec ∧
  t.timer = { sec := 0, m1 := 0, m10 := 0, h1 := 0, h10 := 0 } ∧
  t.histHour = 0 ∧ t.histMinute = 0 ∧ t.histMode = 0 ∧ t.mode = 0 ∧ t.smode = 0 ∧ t.colonEn = true ∧
  t.dsel = 0 ∧ t.ph = 0 ∧ t.ports.rst = false

/-- A reserved word on the command port is refused (30 R78), and no word of the sequencer table is reserved. -/
def Obligations.ReservedCommandIsRefused : Prop :=
  (∀ (s : State) (why : Reserved), s.ports.rst = false → s.ports.tick = false → s.ports.cmdValid = true →
    decode s.ports.cmd = .reserved why → step s = .refused (.reservedWord s.ports.cmd why)) ∧
  ∀ (d : DigitPos) (ph : Phase) (w : OpWord), sequencerWord d ph = some w → ∃ i, decode w = .op i

/-- A scanner step with `ph` in 29 to 31 is refused (42 R123). -/
def Obligations.PhaseWithoutRowIsRefused : Prop :=
  ∀ s : State, s.ports.rst = false → s.ports.tick = false → s.ports.cmdValid = false → 29 ≤ s.ph.toNat →
    step s = .refused (.noSequencerRow s.ph)

/-- The level `sw_pressed[i]` that the next step reads is 1 exactly when the pin's level is `SW_ACTIVE_LEVEL[i]`
(20 R55), after every step; the pins are the environment's free choice (log 1). -/
def Obligations.PressedLevelsFollowThePinPolarity : Prop :=
  ∀ (s t : State) (i : SwitchId), step s = .next t →
    t.swPressedAt i =
      ((Config.env s.draws).swPin.getLsbD i.num == s.params.swActiveLevel.getLsbD i.num)

/-- No operation can fail (60 R165): every operation, in every state, has a next state; a step has one too, or is refused
for a reserved command word or a `ph` without a row, and for nothing else (60 R166). -/
def Obligations.NoOperationFails : Prop :=
  (∀ (i : Instr) (s : State), ∃ t, exec i s = .next t) ∧
  ∀ s : State,
    (∃ t, step s = .next t) ∨
    (s.ports.rst = false ∧ s.ports.tick = false ∧ s.ports.cmdValid = true ∧
      ∃ why, decode s.ports.cmd = .reserved why ∧ step s = .refused (.reservedWord s.ports.cmd why)) ∨
    (s.ports.rst = false ∧ s.ports.tick = false ∧ s.ports.cmdValid = false ∧ 29 ≤ s.ph.toNat ∧
      step s = .refused (.noSequencerRow s.ph))

/-- A step that neither resets nor performs a command changes `smode` only at `ph` 0: a mode change takes effect on the
display with the next pass (42 R134), and a TICK at `ph` 0 leaves it too. -/
def Obligations.ScanModeChangesOnlyAtTheTopOfAPass : Prop :=
  ∀ s t : State, s.ports.rst = false → s.ports.cmdValid = false → (s.ph ≠ 0 ∨ s.ports.tick = true) →
    step s = .next t → t.smode = s.smode

/-- In an OFF pass the hour and minute histories stand still (42 R128, 70 R203). -/
def Obligations.OffPassLeavesTheAdjustHistories : Prop :=
  ∀ s t : State, s.ports.rst = false → s.ports.cmdValid = false → 24 ≤ s.ph.toNat → step s = .next t →
    t.histHour = s.histHour ∧ t.histMinute = s.histMinute

/-! ### What the operations leave alone -/

/-- No operation reads or writes `ph`: only a step writes it (42 R120, 90 C8). No operation writes the ports (inputs and
`cmd_fire`, 10 R42) or the parameters (70 R196), though SWS reads `sw_pressed` and WRB reads `OFF_VALUE`. That the ports,
the parameters, `cmd_fire` and the counter of draws are fields of State at all is the model's choice (logs 1, 3, 5). -/
def Obligations.NoOperationMovesThePhaseOrThePorts : Prop :=
  ∀ (i : Instr) (s t : State), exec i s = .next t →
    t.ph = s.ph ∧ t.ports = s.ports ∧ t.cmdFire = s.cmdFire ∧ t.params = s.params ∧ t.draws = s.draws ∧
    ∀ ph : Phase, exec i { s with ph := ph } = .next { t with ph := ph }

/-- Who may write a control register or an output (10 R29 to R33, 41 R111): `mode` and `colon_en` TOGL and SWS 2, `smode`
LDM, `dsel` SEL and DSL, `bcd` WRD and WRB. -/
def Obligations.ControlRegistersHaveTheirWriters : Prop :=
  ∀ (i : Instr) (s t : State), exec i s = .next t →
    (i ≠ .togl → i ≠ .sws .modeSwitch → t.mode = s.mode ∧ t.colonEn = s.colonEn) ∧
    (i ≠ .ldm → t.smode = s.smode) ∧
    ((∀ pos, i ≠ .sel pos ∧ i ≠ .dsl pos) → t.dsel = s.dsel) ∧
    ((∀ pos, i ≠ .wrd pos) → i ≠ .wrb → t.bcd = s.bcd)

/-- Who may write a counter or a history (10 R26, R35): `timer` only INCS, INCM, INCH of counter 1, CLRT, and TICK, TOGL
and SWS 2 by the mode; the adjusts and SWS 0 and 1 never; `H[j]` only SAMP `j` and SWS `j`. -/
def Obligations.CountersAndHistoriesHaveTheirWriters : Prop :=
  ∀ (i : Instr) (s t : State), exec i s = .next t →
    (i ≠ .incs .timer → (∀ r, i ≠ .incm .timer r) → i ≠ .inch .timer → i ≠ .clrt → (i = .tick → s.mode ≠ 1) →
      (i = .togl ∨ i = .sws .modeSwitch → s.mode ≠ 0) → t.timer = s.timer) ∧
    (i ≠ .incs .clock → (∀ r, i ≠ .incm .clock r) → i ≠ .inch .clock → i ≠ .clrs → (i = .tick → s.mode ≠ 0) →
      i ≠ .adjh → i ≠ .adjm → i ≠ .sws .hourAdjust → i ≠ .sws .minuteAdjust → t.clock = s.clock) ∧
    ∀ j : SwitchId, (∀ p, i ≠ .samp j p) → i ≠ .sws j → t.hist j = s.hist j

/-! ### The counters as numbers -/

/-- INCS takes a well-formed counter's total to the next one, modulo a day for `clock` and 100 hours for `timer`, keeps
its fields in range and leaves the other counter alone (40 R96, R99). -/
def Obligations.IncsCountsSecondsModuloTheWrap : Prop :=
  ∀ (c : CounterId) (s : State), (s.counter c).InRange c →
    ∃ v, exec (.incs c) s = .next (s.setCounter c v) ∧ v.InRange c ∧
      v.total = ((s.counter c).total + 1) % (hourModulus c * 3600)

/-- INCM takes the minutes to the next of 60, and the hours to the next exactly when it ripples out of minute 59; the
seconds stay (40 R96). -/
def Obligations.IncmCountsMinutesModuloSixty : Prop :=
  ∀ (c : CounterId) (r : Bool) (s : State), (s.counter c).InRange c →
    ∃ v, exec (.incm c r) s = .next (s.setCounter c v) ∧ v.InRange c ∧ v.sec = (s.counter c).sec ∧
      v.minutes = ((s.counter c).minutes + 1) % 60 ∧
      v.hours = if r = true ∧ (s.counter c).minutes = 59 then ((s.counter c).hours + 1) % hourModulus c
        else (s.counter c).hours

/-- INCH takes the hours to the next of 24 (`clock`) or 100 (`timer`); minutes and seconds stay (40 R96). -/
def Obligations.InchCountsHoursModuloTheWrap : Prop :=
  ∀ (c : CounterId) (s : State), (s.counter c).InRange c →
    ∃ v, exec (.inch c) s = .next (s.setCounter c v) ∧ v.InRange c ∧ v.sec = (s.counter c).sec ∧
      v.m1 = (s.counter c).m1 ∧ v.m10 = (s.counter c).m10 ∧
      v.hours = ((s.counter c).hours + 1) % hourModulus c

/-- Every operation keeps both counters in the ranges of 10 R27 (40 R99). -/
def Obligations.EveryOperationKeepsTheCountersInRange : Prop :=
  ∀ (i : Instr) (s t : State), s.clock.InRange .clock → s.timer.InRange .timer → exec i s = .next t →
    t.clock.InRange .clock ∧ t.timer.InRange .timer

/-- From seconds `s`, `60 - s` INCS are one INCM with ripple on the counter with its seconds cleared (40 R100). -/
def Obligations.SixtySecondsMakeOneMinute : Prop :=
  ∀ (c : CounterId) (s : State), (s.counter c).InRange c →
    ∃ t, exec (.incm c true) (s.setCounter c { s.counter c with sec := 0 }) = .next t ∧
      performAll (List.replicate (60 - (s.counter c).sec.toNat) (.incs c)) s = .next t

/-- From minutes 00, sixty INCM with ripple are one INCH: the minutes are 00 again (40 R100). -/
def Obligations.SixtyMinutesMakeOneHour : Prop :=
  ∀ (c : CounterId) (s : State), (s.counter c).minutes = 0 →
    ∃ t, exec (.inch c) s = .next t ∧ performAll (List.replicate 60 (.incm c true)) s = .next t

/-! ### Modes -/

/-- Three TOGL from CLOCK are back in CLOCK, `timer` zeroed and the colon enabled; after two the mode is OFF and the colon
disabled (41 R114). -/
def Obligations.ThreeTogglesAreACycle : Prop :=
  ∀ s : State, s.mode = 0 →
    (∃ t, performAll [.togl] s = .next t ∧ t.mode = 1 ∧ t.timer.total = 0 ∧ t.colonEn = s.colonEn) ∧
    (∃ t, performAll [.togl, .togl] s = .next t ∧ t.mode = 2 ∧ t.colonEn = false) ∧
    performAll [.togl, .togl, .togl] s =
      .next { s with timer := { sec := 0, m1 := 0, m10 := 0, h1 := 0, h10 := 0 }, colonEn := true }

/-- Every step, of any agent, keeps "`colon_en` is 0 exactly when `mode` is OFF" (41 R112). -/
def Obligations.EveryStepKeepsTheColonWithTheMode : Prop :=
  ∀ s t : State, s.ColonFollowsMode → step s = .next t → t.ColonFollowsMode

/-! ### The debouncer -/

/-- When an instance fires (43 R153): after the samples `ps` (oldest first) from an all-zero history, the last sample
fires exactly when the last twelve samples are pressed and the one before them is not. -/
def Obligations.DebouncerFiresOnTheTwelfthPressedSample : Prop :=
  ∀ (i : SwitchId) (s : State) (ps : List Bool), s.hist i = 0 →
    ∃ t, performAll (ps.map (.samp i ·)) s = .next t ∧
      (t.hist i = 0xF000 ↔ ps.reverse.take 13 = List.replicate 12 true ++ [false])

/-- One fire per press (43 R155): from any history, after one not-pressed sample the `k`-th pressed sample of an unbroken
run fires exactly when `k` is 12. -/
def Obligations.OnePressFiresOnce : Prop :=
  ∀ (i : SwitchId) (s : State) (k : Nat),
    ∃ t, performAll (.samp i false :: List.replicate k (.samp i true)) s = .next t ∧ (t.hist i = 0xF000 ↔ k = 12)

/-! ### Whole-machine properties -/

/-- The scan invariant (which includes "at most one select line", 42 R133, and the ranges of 10 R27) holds after reset. -/
def Obligations.ScanInvariantHoldsAtReset : Prop := State.reset.ScanInv

/-- From every state that meets the scan invariant, with no command on the test port, the step is not refused and keeps
the invariant, whatever the environment does (10 R40, 41 R112, 42 R133, 60 R166). -/
def Obligations.EveryBlockStepKeepsTheScanInvariant : Prop :=
  ∀ s : State, s.ScanInv → s.ports.ofBlock → ∃ t, step s = .next t ∧ t.ScanInv

/-- Every run from reset that does not use the test port, under any inputs and any parameters, is never refused and is
always in a well-formed state (10 R40). -/
def Obligations.EveryBlockRunIsWellFormed : Prop :=
  ∀ (p : Params) (n : Nat) (inputs : List Ports), (∀ x ∈ inputs, x.ofBlock) →
    ∃ t, runWith inputs (State.atReset p n) = .next t ∧ t.WellFormed

/-- The value `timer` has before the mode first becomes TIMER is never observed (10 R39): whatever its value, the outputs
after the steps of a run that does not use the test port are the same. -/
def Obligations.TimerBeforeItsFirstUseIsNotObserved : Prop :=
  ∀ (s : State) (v : TimeCounter) (inputs : List Ports), s.mode ≠ 1 → s.smode ≠ 1 → (∀ x ∈ inputs, x.ofBlock) →
    observedWith inputs { s with timer := v } = observedWith inputs s

/-- What a run pass puts on the outputs under quiet ports, that is with no reset, no tick, no command and no switch pressed
(a case of 42 R137, which also takes in pressed switches that do not fire): the four digits of the counter `mode` names,
each under its own select line, and at the end no line is selected and `ph` is 0 again. -/
def Obligations.RunPassShowsTheFourDigits : Prop :=
  ∀ (s : State) (c : CounterId), s.ph = 0 → s.dsel = 0 → s.mode = (match c with | .clock => 0 | .timer => 1) →
    let t := s.counter c
    let k := s.colonEn
    observedWith (List.replicate 24 Ports.quiet) s =
      [(0, s.bcd, k), (1, s.bcd, k), (1, t.h10, k), (1, t.h10, k), (1, t.h10, k), (0, t.h10, k), (0, t.h10, k),
       (2, t.h10, k), (2, t.h1, k), (2, t.h1, k), (2, t.h1, k), (0, t.h1, k), (0, t.h1, k),
       (4, t.h1, k), (4, t.m10, k), (4, t.m10, k), (4, t.m10, k), (0, t.m10, k), (0, t.m10, k),
       (8, t.m10, k), (8, t.m1, k), (8, t.m1, k), (0, t.m1, k), (0, t.m1, k)] ∧
    ∃ u, runWith (List.replicate 24 Ports.quiet) s = .next u ∧ u.ph = 0 ∧ u.clock = s.clock ∧ u.timer = s.timer

/-- What an OFF pass puts on the outputs (42 R135): the placeholder under the one line of `OFF_DIGIT`, and at the end no
line is selected and `ph` is 0 again. -/
def Obligations.OffPassShowsThePlaceholder : Prop :=
  ∀ s : State, s.ph = 0 → s.dsel = 0 → s.mode = 2 →
    let d : BitVec 4 := selectBit s.params.offDigit
    let v := s.params.offValue
    let k := s.colonEn
    observedWith (List.replicate 6 Ports.quiet) s =
      [(0, s.bcd, k), (d, s.bcd, k), (d, v, k), (d, v, k), (d, v, k), (0, v, k)] ∧
    ∃ u, runWith (List.replicate 6 Ports.quiet) s = .next u ∧ u.ph = 0 ∧ u.clock = s.clock ∧ u.timer = s.timer

/-- One step of the block keeps the timer unobserved (10 R39): two states that differ only in `timer`, with neither `mode`
nor `smode` TIMER, step to states with equal outputs that are equal, or again differ only so. -/
def Obligations.EveryBlockStepKeepsTheTimerUnobserved : Prop :=
  ∀ (s : State) (v : TimeCounter), s.mode ≠ 1 → s.smode ≠ 1 → s.ph.toNat ≤ 28 → s.ports.ofBlock →
    ∃ t u, step s = .next t ∧ step { s with timer := v } = .next u ∧ u.outputs = t.outputs ∧
      (u = t ∨ (t.mode ≠ 1 ∧ t.smode ≠ 1 ∧ u = { t with timer := v }))
end

