-- ==== Sys2Proof/Laws/Flags.lean ====
section
/-! SUPPORT. The transient conditions as facts about numbers: one lemma per condition. -/

namespace Sys2Proof.Machine

theorem plusOne_eq {n : Nat} (v : BitVec n) : plusOne v = v.toNat + 1 := rfl

theorem toNat_stored (n a : Nat) : (stored n a).toNat = a % 2 ^ n := BitVec.toNat_ofNat ..

theorem secondCarry_iff (v : Seconds) : secondCarry v = true ↔ v.toNat = 59 := by simp [secondCarry, plusOne]

theorem secondCarry_false_iff (v : Seconds) : secondCarry v = false ↔ v.toNat ≠ 59 := by simp [secondCarry, plusOne]

theorem digitCarry_iff (d : Digit) : digitCarry d = true ↔ d.toNat = 9 := by simp [digitCarry, plusOne]

theorem digitCarry_false_iff (d : Digit) : digitCarry d = false ↔ d.toNat ≠ 9 := by simp [digitCarry, plusOne]

theorem tenMinuteCarry_iff (d : Digit) : tenMinuteCarry d = true ↔ d.toNat = 5 := by simp [tenMinuteCarry, plusOne]

theorem tenMinuteCarry_false_iff (d : Digit) : tenMinuteCarry d = false ↔ d.toNat ≠ 5 := by simp [tenMinuteCarry, plusOne]

theorem wraps24_iff (c : CounterId) (t : TimeCounter) : wraps24 c t = true ↔ c = .clock ∧ t.h10 = 2 ∧ t.h1 = 4 := by
  simp [wraps24, and_assoc]

theorem fires_iff (h : Hist) : fires h = true ↔ h = 0xF000 := by simp [fires, firePattern]

end Sys2Proof.Machine
end

