-- ==== Sys2Proof/Laws/State.lean ====
section
/-! SUPPORT. One lemma per field per named update of the state, true by rfl (after a case split on the register's index
where there is one), so that no proof unfolds a record update. -/

namespace Sys2Proof.Machine

/-! `C[c] <- v` and `H[i] <- h`. -/

@[simp] theorem setCounter_histHour (s : State) (c : CounterId) (v : TimeCounter) : (s.setCounter c v).histHour = s.histHour := by cases c <;> rfl
@[simp] theorem setCounter_histMinute (s : State) (c : CounterId) (v : TimeCounter) : (s.setCounter c v).histMinute = s.histMinute := by cases c <;> rfl
@[simp] theorem setCounter_histMode (s : State) (c : CounterId) (v : TimeCounter) : (s.setCounter c v).histMode = s.histMode := by cases c <;> rfl
@[simp] theorem setCounter_mode (s : State) (c : CounterId) (v : TimeCounter) : (s.setCounter c v).mode = s.mode := by cases c <;> rfl
@[simp] theorem setCounter_smode (s : State) (c : CounterId) (v : TimeCounter) : (s.setCounter c v).smode = s.smode := by cases c <;> rfl
@[simp] theorem setCounter_colonEn (s : State) (c : CounterId) (v : TimeCounter) : (s.setCounter c v).colonEn = s.colonEn := by cases c <;> rfl
@[simp] theorem setCounter_dsel (s : State) (c : CounterId) (v : TimeCounter) : (s.setCounter c v).dsel = s.dsel := by cases c <;> rfl
@[simp] theorem setCounter_bcd (s : State) (c : CounterId) (v : TimeCounter) : (s.setCounter c v).bcd = s.bcd := by cases c <;> rfl
@[simp] theorem setCounter_ph (s : State) (c : CounterId) (v : TimeCounter) : (s.setCounter c v).ph = s.ph := by cases c <;> rfl
@[simp] theorem setCounter_ports (s : State) (c : CounterId) (v : TimeCounter) : (s.setCounter c v).ports = s.ports := by cases c <;> rfl
@[simp] theorem setCounter_cmdFire (s : State) (c : CounterId) (v : TimeCounter) : (s.setCounter c v).cmdFire = s.cmdFire := by cases c <;> rfl
@[simp] theorem setCounter_params (s : State) (c : CounterId) (v : TimeCounter) : (s.setCounter c v).params = s.params := by cases c <;> rfl
@[simp] theorem setCounter_draws (s : State) (c : CounterId) (v : TimeCounter) : (s.setCounter c v).draws = s.draws := by cases c <;> rfl

@[simp] theorem counter_setCounter (s : State) (c : CounterId) (v : TimeCounter) : (s.setCounter c v).counter c = v := by
  cases c <;> rfl
theorem counter_setCounter_ne (s : State) (c d : CounterId) (v : TimeCounter) (h : d ≠ c) :
    (s.setCounter c v).counter d = s.counter d := by
  cases c <;> cases d <;> first | rfl | exact absurd rfl h
@[simp] theorem setCounter_setCounter (s : State) (c : CounterId) (v w : TimeCounter) :
    (s.setCounter c v).setCounter c w = s.setCounter c w := by cases c <;> rfl
@[simp] theorem setCounter_counter (s : State) (c : CounterId) : s.setCounter c (s.counter c) = s := by cases c <;> rfl
@[simp] theorem hist_setCounter (s : State) (c : CounterId) (v : TimeCounter) (i : SwitchId) :
    (s.setCounter c v).hist i = s.hist i := by cases c <;> cases i <;> rfl
@[simp] theorem counter_clock (s : State) : s.counter .clock = s.clock := rfl
@[simp] theorem counter_timer (s : State) : s.counter .timer = s.timer := rfl
@[simp] theorem setCounter_clock (s : State) (v : TimeCounter) : (s.setCounter .clock v).clock = v := rfl
@[simp] theorem setCounter_clock_timer (s : State) (v : TimeCounter) : (s.setCounter .clock v).timer = s.timer := rfl
@[simp] theorem setCounter_timer (s : State) (v : TimeCounter) : (s.setCounter .timer v).timer = v := rfl
@[simp] theorem setCounter_timer_clock (s : State) (v : TimeCounter) : (s.setCounter .timer v).clock = s.clock := rfl

@[simp] theorem setHist_clock (s : State) (i : SwitchId) (h : Hist) : (s.setHist i h).clock = s.clock := by cases i <;> rfl
@[simp] theorem setHist_timer (s : State) (i : SwitchId) (h : Hist) : (s.setHist i h).timer = s.timer := by cases i <;> rfl
@[simp] theorem setHist_mode (s : State) (i : SwitchId) (h : Hist) : (s.setHist i h).mode = s.mode := by cases i <;> rfl
@[simp] theorem setHist_smode (s : State) (i : SwitchId) (h : Hist) : (s.setHist i h).smode = s.smode := by cases i <;> rfl
@[simp] theorem setHist_colonEn (s : State) (i : SwitchId) (h : Hist) : (s.setHist i h).colonEn = s.colonEn := by cases i <;> rfl
@[simp] theorem setHist_dsel (s : State) (i : SwitchId) (h : Hist) : (s.setHist i h).dsel = s.dsel := by cases i <;> rfl
@[simp] theorem setHist_bcd (s : State) (i : SwitchId) (h : Hist) : (s.setHist i h).bcd = s.bcd := by cases i <;> rfl
@[simp] theorem setHist_ph (s : State) (i : SwitchId) (h : Hist) : (s.setHist i h).ph = s.ph := by cases i <;> rfl
@[simp] theorem setHist_ports (s : State) (i : SwitchId) (h : Hist) : (s.setHist i h).ports = s.ports := by cases i <;> rfl
@[simp] theorem setHist_cmdFire (s : State) (i : SwitchId) (h : Hist) : (s.setHist i h).cmdFire = s.cmdFire := by cases i <;> rfl
@[simp] theorem setHist_params (s : State) (i : SwitchId) (h : Hist) : (s.setHist i h).params = s.params := by cases i <;> rfl
@[simp] theorem setHist_draws (s : State) (i : SwitchId) (h : Hist) : (s.setHist i h).draws = s.draws := by cases i <;> rfl

@[simp] theorem hist_setHist (s : State) (i : SwitchId) (h : Hist) : (s.setHist i h).hist i = h := by cases i <;> rfl
theorem hist_setHist_ne (s : State) (i j : SwitchId) (h : Hist) (hj : j ≠ i) : (s.setHist i h).hist j = s.hist j := by
  cases i <;> cases j <;> first | rfl | exact absurd rfl hj
@[simp] theorem setHist_setHist (s : State) (i : SwitchId) (g h : Hist) :
    (s.setHist i g).setHist i h = s.setHist i h := by cases i <;> rfl
@[simp] theorem setHist_hist (s : State) (i : SwitchId) : s.setHist i (s.hist i) = s := by cases i <;> rfl
@[simp] theorem counter_setHist (s : State) (i : SwitchId) (h : Hist) (c : CounterId) :
    (s.setHist i h).counter c = s.counter c := by cases c <;> cases i <;> rfl
@[simp] theorem hist_hour (s : State) : s.hist .hourAdjust = s.histHour := rfl
@[simp] theorem hist_minute (s : State) : s.hist .minuteAdjust = s.histMinute := rfl
@[simp] theorem hist_mode (s : State) : s.hist .modeSwitch = s.histMode := rfl

/-! The updates of single registers. -/

@[simp] theorem clearTimer_clock (s : State)  : (s.clearTimer).clock = s.clock := rfl
@[simp] theorem clearTimer_histHour (s : State)  : (s.clearTimer).histHour = s.histHour := rfl
@[simp] theorem clearTimer_histMinute (s : State)  : (s.clearTimer).histMinute = s.histMinute := rfl
@[simp] theorem clearTimer_histMode (s : State)  : (s.clearTimer).histMode = s.histMode := rfl
@[simp] theorem clearTimer_mode (s : State)  : (s.clearTimer).mode = s.mode := rfl
@[simp] theorem clearTimer_smode (s : State)  : (s.clearTimer).smode = s.smode := rfl
@[simp] theorem clearTimer_colonEn (s : State)  : (s.clearTimer).colonEn = s.colonEn := rfl
@[simp] theorem clearTimer_dsel (s : State)  : (s.clearTimer).dsel = s.dsel := rfl
@[simp] theorem clearTimer_bcd (s : State)  : (s.clearTimer).bcd = s.bcd := rfl
@[simp] theorem clearTimer_ph (s : State)  : (s.clearTimer).ph = s.ph := rfl
@[simp] theorem clearTimer_ports (s : State)  : (s.clearTimer).ports = s.ports := rfl
@[simp] theorem clearTimer_cmdFire (s : State)  : (s.clearTimer).cmdFire = s.cmdFire := rfl
@[simp] theorem clearTimer_params (s : State)  : (s.clearTimer).params = s.params := rfl
@[simp] theorem clearTimer_draws (s : State)  : (s.clearTimer).draws = s.draws := rfl

@[simp] theorem clearTimer_timer (s : State) : s.clearTimer.timer = .zero := rfl

@[simp] theorem clearClockSeconds_timer (s : State)  : (s.clearClockSeconds).timer = s.timer := rfl
@[simp] theorem clearClockSeconds_histHour (s : State)  : (s.clearClockSeconds).histHour = s.histHour := rfl
@[simp] theorem clearClockSeconds_histMinute (s : State)  : (s.clearClockSeconds).histMinute = s.histMinute := rfl
@[simp] theorem clearClockSeconds_histMode (s : State)  : (s.clearClockSeconds).histMode = s.histMode := rfl
@[simp] theorem clearClockSeconds_mode (s : State)  : (s.clearClockSeconds).mode = s.mode := rfl
@[simp] theorem clearClockSeconds_smode (s : State)  : (s.clearClockSeconds).smode = s.smode := rfl
@[simp] theorem clearClockSeconds_colonEn (s : State)  : (s.clearClockSeconds).colonEn = s.colonEn := rfl
@[simp] theorem clearClockSeconds_dsel (s : State)  : (s.clearClockSeconds).dsel = s.dsel := rfl
@[simp] theorem clearClockSeconds_bcd (s : State)  : (s.clearClockSeconds).bcd = s.bcd := rfl
@[simp] theorem clearClockSeconds_ph (s : State)  : (s.clearClockSeconds).ph = s.ph := rfl
@[simp] theorem clearClockSeconds_ports (s : State)  : (s.clearClockSeconds).ports = s.ports := rfl
@[simp] theorem clearClockSeconds_cmdFire (s : State)  : (s.clearClockSeconds).cmdFire = s.cmdFire := rfl
@[simp] theorem clearClockSeconds_params (s : State)  : (s.clearClockSeconds).params = s.params := rfl
@[simp] theorem clearClockSeconds_draws (s : State)  : (s.clearClockSeconds).draws = s.draws := rfl

@[simp] theorem clearClockSeconds_clock (s : State) : s.clearClockSeconds.clock = { s.clock with sec := 0 } := rfl

@[simp] theorem setColon_clock (s : State) (b : Bool) : (s.setColon b).clock = s.clock := rfl
@[simp] theorem setColon_timer (s : State) (b : Bool) : (s.setColon b).timer = s.timer := rfl
@[simp] theorem setColon_histHour (s : State) (b : Bool) : (s.setColon b).histHour = s.histHour := rfl
@[simp] theorem setColon_histMinute (s : State) (b : Bool) : (s.setColon b).histMinute = s.histMinute := rfl
@[simp] theorem setColon_histMode (s : State) (b : Bool) : (s.setColon b).histMode = s.histMode := rfl
@[simp] theorem setColon_mode (s : State) (b : Bool) : (s.setColon b).mode = s.mode := rfl
@[simp] theorem setColon_smode (s : State) (b : Bool) : (s.setColon b).smode = s.smode := rfl
@[simp] theorem setColon_dsel (s : State) (b : Bool) : (s.setColon b).dsel = s.dsel := rfl
@[simp] theorem setColon_bcd (s : State) (b : Bool) : (s.setColon b).bcd = s.bcd := rfl
@[simp] theorem setColon_ph (s : State) (b : Bool) : (s.setColon b).ph = s.ph := rfl
@[simp] theorem setColon_ports (s : State) (b : Bool) : (s.setColon b).ports = s.ports := rfl
@[simp] theorem setColon_cmdFire (s : State) (b : Bool) : (s.setColon b).cmdFire = s.cmdFire := rfl
@[simp] theorem setColon_params (s : State) (b : Bool) : (s.setColon b).params = s.params := rfl
@[simp] theorem setColon_draws (s : State) (b : Bool) : (s.setColon b).draws = s.draws := rfl

@[simp] theorem setColon_colonEn (s : State) (b : Bool) : (s.setColon b).colonEn = b := rfl

@[simp] theorem selectDigit_clock (s : State) (pos : DigitPos) : (s.selectDigit pos).clock = s.clock := rfl
@[simp] theorem selectDigit_timer (s : State) (pos : DigitPos) : (s.selectDigit pos).timer = s.timer := rfl
@[simp] theorem selectDigit_histHour (s : State) (pos : DigitPos) : (s.selectDigit pos).histHour = s.histHour := rfl
@[simp] theorem selectDigit_histMinute (s : State) (pos : DigitPos) : (s.selectDigit pos).histMinute = s.histMinute := rfl
@[simp] theorem selectDigit_histMode (s : State) (pos : DigitPos) : (s.selectDigit pos).histMode = s.histMode := rfl
@[simp] theorem selectDigit_mode (s : State) (pos : DigitPos) : (s.selectDigit pos).mode = s.mode := rfl
@[simp] theorem selectDigit_smode (s : State) (pos : DigitPos) : (s.selectDigit pos).smode = s.smode := rfl
@[simp] theorem selectDigit_colonEn (s : State) (pos : DigitPos) : (s.selectDigit pos).colonEn = s.colonEn := rfl
@[simp] theorem selectDigit_bcd (s : State) (pos : DigitPos) : (s.selectDigit pos).bcd = s.bcd := rfl
@[simp] theorem selectDigit_ph (s : State) (pos : DigitPos) : (s.selectDigit pos).ph = s.ph := rfl
@[simp] theorem selectDigit_ports (s : State) (pos : DigitPos) : (s.selectDigit pos).ports = s.ports := rfl
@[simp] theorem selectDigit_cmdFire (s : State) (pos : DigitPos) : (s.selectDigit pos).cmdFire = s.cmdFire := rfl
@[simp] theorem selectDigit_params (s : State) (pos : DigitPos) : (s.selectDigit pos).params = s.params := rfl
@[simp] theorem selectDigit_draws (s : State) (pos : DigitPos) : (s.selectDigit pos).draws = s.draws := rfl

@[simp] theorem selectDigit_dsel (s : State) (pos : DigitPos) :
    (s.selectDigit pos).dsel = s.dsel ||| selectBit pos := rfl

@[simp] theorem deselectDigit_clock (s : State) (pos : DigitPos) : (s.deselectDigit pos).clock = s.clock := rfl
@[simp] theorem deselectDigit_timer (s : State) (pos : DigitPos) : (s.deselectDigit pos).timer = s.timer := rfl
@[simp] theorem deselectDigit_histHour (s : State) (pos : DigitPos) : (s.deselectDigit pos).histHour = s.histHour := rfl
@[simp] theorem deselectDigit_histMinute (s : State) (pos : DigitPos) : (s.deselectDigit pos).histMinute = s.histMinute := rfl
@[simp] theorem deselectDigit_histMode (s : State) (pos : DigitPos) : (s.deselectDigit pos).histMode = s.histMode := rfl
@[simp] theorem deselectDigit_mode (s : State) (pos : DigitPos) : (s.deselectDigit pos).mode = s.mode := rfl
@[simp] theorem deselectDigit_smode (s : State) (pos : DigitPos) : (s.deselectDigit pos).smode = s.smode := rfl
@[simp] theorem deselectDigit_colonEn (s : State) (pos : DigitPos) : (s.deselectDigit pos).colonEn = s.colonEn := rfl
@[simp] theorem deselectDigit_bcd (s : State) (pos : DigitPos) : (s.deselectDigit pos).bcd = s.bcd := rfl
@[simp] theorem deselectDigit_ph (s : State) (pos : DigitPos) : (s.deselectDigit pos).ph = s.ph := rfl
@[simp] theorem deselectDigit_ports (s : State) (pos : DigitPos) : (s.deselectDigit pos).ports = s.ports := rfl
@[simp] theorem deselectDigit_cmdFire (s : State) (pos : DigitPos) : (s.deselectDigit pos).cmdFire = s.cmdFire := rfl
@[simp] theorem deselectDigit_params (s : State) (pos : DigitPos) : (s.deselectDigit pos).params = s.params := rfl
@[simp] theorem deselectDigit_draws (s : State) (pos : DigitPos) : (s.deselectDigit pos).draws = s.draws := rfl

@[simp] theorem deselectDigit_dsel (s : State) (pos : DigitPos) :
    (s.deselectDigit pos).dsel = s.dsel &&& ~~~selectBit pos := rfl

@[simp] theorem writeBcd_clock (s : State) (v : Digit) : (s.writeBcd v).clock = s.clock := rfl
@[simp] theorem writeBcd_timer (s : State) (v : Digit) : (s.writeBcd v).timer = s.timer := rfl
@[simp] theorem writeBcd_histHour (s : State) (v : Digit) : (s.writeBcd v).histHour = s.histHour := rfl
@[simp] theorem writeBcd_histMinute (s : State) (v : Digit) : (s.writeBcd v).histMinute = s.histMinute := rfl
@[simp] theorem writeBcd_histMode (s : State) (v : Digit) : (s.writeBcd v).histMode = s.histMode := rfl
@[simp] theorem writeBcd_mode (s : State) (v : Digit) : (s.writeBcd v).mode = s.mode := rfl
@[simp] theorem writeBcd_smode (s : State) (v : Digit) : (s.writeBcd v).smode = s.smode := rfl
@[simp] theorem writeBcd_colonEn (s : State) (v : Digit) : (s.writeBcd v).colonEn = s.colonEn := rfl
@[simp] theorem writeBcd_dsel (s : State) (v : Digit) : (s.writeBcd v).dsel = s.dsel := rfl
@[simp] theorem writeBcd_ph (s : State) (v : Digit) : (s.writeBcd v).ph = s.ph := rfl
@[simp] theorem writeBcd_ports (s : State) (v : Digit) : (s.writeBcd v).ports = s.ports := rfl
@[simp] theorem writeBcd_cmdFire (s : State) (v : Digit) : (s.writeBcd v).cmdFire = s.cmdFire := rfl
@[simp] theorem writeBcd_params (s : State) (v : Digit) : (s.writeBcd v).params = s.params := rfl
@[simp] theorem writeBcd_draws (s : State) (v : Digit) : (s.writeBcd v).draws = s.draws := rfl

@[simp] theorem writeBcd_bcd (s : State) (v : Digit) : (s.writeBcd v).bcd = v := rfl

@[simp] theorem endStep_clock (s : State) (fire held : Bool) : (s.endStep fire held).clock = s.clock := rfl
@[simp] theorem endStep_timer (s : State) (fire held : Bool) : (s.endStep fire held).timer = s.timer := rfl
@[simp] theorem endStep_histHour (s : State) (fire held : Bool) : (s.endStep fire held).histHour = s.histHour := rfl
@[simp] theorem endStep_histMinute (s : State) (fire held : Bool) : (s.endStep fire held).histMinute = s.histMinute := rfl
@[simp] theorem endStep_histMode (s : State) (fire held : Bool) : (s.endStep fire held).histMode = s.histMode := rfl
@[simp] theorem endStep_mode (s : State) (fire held : Bool) : (s.endStep fire held).mode = s.mode := rfl
@[simp] theorem endStep_smode (s : State) (fire held : Bool) : (s.endStep fire held).smode = s.smode := rfl
@[simp] theorem endStep_colonEn (s : State) (fire held : Bool) : (s.endStep fire held).colonEn = s.colonEn := rfl
@[simp] theorem endStep_dsel (s : State) (fire held : Bool) : (s.endStep fire held).dsel = s.dsel := rfl
@[simp] theorem endStep_bcd (s : State) (fire held : Bool) : (s.endStep fire held).bcd = s.bcd := rfl
@[simp] theorem endStep_ph (s : State) (fire held : Bool) : (s.endStep fire held).ph = s.ph := rfl
@[simp] theorem endStep_params (s : State) (fire held : Bool) : (s.endStep fire held).params = s.params := rfl

@[simp] theorem endStep_cmdFire (s : State) (fire held : Bool) : (s.endStep fire held).cmdFire = fire := rfl
@[simp] theorem endStep_draws (s : State) (fire held : Bool) : (s.endStep fire held).draws = s.draws + 1 := rfl
@[simp] theorem counter_endStep (s : State) (fire held : Bool) (c : CounterId) :
    (s.endStep fire held).counter c = s.counter c := by cases c <;> rfl
@[simp] theorem hist_endStep (s : State) (fire held : Bool) (i : SwitchId) :
    (s.endStep fire held).hist i = s.hist i := by cases i <;> rfl
@[simp] theorem endStep_swPressed (s : State) (fire held : Bool) :
    (s.endStep fire held).ports.swPressed = s.drawnPorts.swPressed := by
  simp only [State.endStep]; split <;> rfl

end Sys2Proof.Machine
end

