-- ==== Sys2Proof/Laws/Ops.lean ====
section
/-! SUPPORT. For each shared operation: what it can do, said once, and the fields it leaves alone. -/

namespace Sys2Proof.Machine

/-! Increments of one counter. -/

/-- INCH leaves the seconds and the minutes; the hours become the next ones, or 00 when they would read 24 on `clock`. -/
theorem incHour_cases (c : CounterId) (t : TimeCounter) :
    (wraps24 c (hourPlusOne t) = true ∧ incHour c t = { t with h10 := 0, h1 := 0 }) ∨
    (wraps24 c (hourPlusOne t) = false ∧ digitCarry t.h1 = true ∧
      incHour c t = { t with h1 := 0, h10 := stored 4 (plusOne t.h10 % 10) }) ∨
    (wraps24 c (hourPlusOne t) = false ∧ digitCarry t.h1 = false ∧ incHour c t = { t with h1 := stored 4 (plusOne t.h1) }) := by
  have hu : hourPlusOne t = if digitCarry t.h1 then { t with h1 := 0, h10 := stored 4 (plusOne t.h10 % 10) }
      else { t with h1 := stored 4 (plusOne t.h1) } := rfl
  cases hw : wraps24 c (hourPlusOne t)
  · have hi : incHour c t = hourPlusOne t := by simp only [incHour, hw]; rfl
    cases hc : digitCarry t.h1
    · exact .inr (.inr ⟨rfl, rfl, by rw [hi, hu, hc]; rfl⟩)
    · exact .inr (.inl ⟨rfl, rfl, by rw [hi, hu, hc]; rfl⟩)
  · refine .inl ⟨rfl, ?_⟩
    have hi : incHour c t = { hourPlusOne t with h10 := 0, h1 := 0 } := by simp only [incHour, hw]; rfl
    rw [hi, hu]
    split <;> rfl

@[simp] theorem incHour_sec (c : CounterId) (t : TimeCounter) : (incHour c t).sec = t.sec := by
  rcases incHour_cases c t with ⟨-, h⟩ | ⟨-, -, h⟩ | ⟨-, -, h⟩ <;> rw [h]

@[simp] theorem incHour_m1 (c : CounterId) (t : TimeCounter) : (incHour c t).m1 = t.m1 := by
  rcases incHour_cases c t with ⟨-, h⟩ | ⟨-, -, h⟩ | ⟨-, -, h⟩ <;> rw [h]

@[simp] theorem incHour_m10 (c : CounterId) (t : TimeCounter) : (incHour c t).m10 = t.m10 := by
  rcases incHour_cases c t with ⟨-, h⟩ | ⟨-, -, h⟩ | ⟨-, -, h⟩ <;> rw [h]

/-- INCM: one more minute within the hour, a carry into `m10`, or minutes 00 with or without the hour. -/
theorem incMinute_cases (c : CounterId) (r : Bool) (t : TimeCounter) :
    (digitCarry t.m1 = false ∧ incMinute c r t = { t with m1 := stored 4 (plusOne t.m1) }) ∨
    (digitCarry t.m1 = true ∧ tenMinuteCarry t.m10 = false ∧
      incMinute c r t = { t with m1 := 0, m10 := stored 4 (plusOne t.m10) }) ∨
    (digitCarry t.m1 = true ∧ tenMinuteCarry t.m10 = true ∧ r = true ∧
      incMinute c r t = incHour c { t with m1 := 0, m10 := 0 }) ∨
    (digitCarry t.m1 = true ∧ tenMinuteCarry t.m10 = true ∧ r = false ∧
      incMinute c r t = { t with m1 := 0, m10 := 0 }) := by
  cases h1 : digitCarry t.m1 <;> cases h2 : tenMinuteCarry t.m10 <;> cases r <;> simp [incMinute, h1, h2]

@[simp] theorem incMinute_sec (c : CounterId) (r : Bool) (t : TimeCounter) : (incMinute c r t).sec = t.sec := by
  rcases incMinute_cases c r t with ⟨-, h⟩ | ⟨-, -, h⟩ | ⟨-, -, -, h⟩ | ⟨-, -, -, h⟩ <;> simp [h]

/-- INCS: one more second, or seconds 0 and INCM with ripple. -/
theorem incSecond_cases (c : CounterId) (t : TimeCounter) :
    (secondCarry t.sec = false ∧ incSecond c t = { t with sec := stored 6 (plusOne t.sec) }) ∨
    (secondCarry t.sec = true ∧ incSecond c t = incMinute c true { t with sec := 0 }) := by
  cases h : secondCarry t.sec <;> simp [incSecond, h]

/-! Operations on the state. -/

/-- TICK: INCS of the counter `mode` selects, or nothing. -/
theorem takeTick_cases (s : State) :
    (∃ c, counterOfMode s.mode = some c ∧ s.takeTick = s.setCounter c (incSecond c (s.counter c))) ∨
    (counterOfMode s.mode = none ∧ s.takeTick = s) := by
  cases h : counterOfMode s.mode <;> simp [State.takeTick, h, State.mapCounter]

/-- A mode selects `clock` exactly when it is CLOCK, `timer` exactly when it is TIMER. -/
theorem counterOfMode_cases (m : ModeBits) :
    (m = modeClock ∧ counterOfMode m = some .clock) ∨ (m = modeTimer ∧ counterOfMode m = some .timer) ∨
    (m ≠ modeClock ∧ m ≠ modeTimer ∧ counterOfMode m = none) := by
  unfold counterOfMode
  split
  · exact .inl ⟨‹_›, rfl⟩
  · split
    · exact .inr (.inl ⟨‹_›, rfl⟩)
    · exact .inr (.inr ⟨‹_›, ‹_›, rfl⟩)

/-- TOGL: one of the three transitions, or nothing at `mode` 3. -/
theorem toggleMode_cases (s : State) :
    (s.mode = modeClock ∧ s.toggleMode = { s with timer := .zero, mode := modeTimer }) ∨
    (s.mode = modeTimer ∧ s.toggleMode = { s with colonEn := false, mode := modeOff }) ∨
    (s.mode = modeOff ∧ s.toggleMode = { s with colonEn := true, mode := modeClock }) ∨
    (s.mode = 3 ∧ s.toggleMode = s) := by
  have hm : ∀ m : ModeBits, m = modeClock ∨ m = modeTimer ∨ m = modeOff ∨ m = 3 := by decide
  rcases hm s.mode with h | h | h | h <;>
    simp [State.toggleMode, State.clearTimer, State.setColon, h]

/-- WRD: a digit of the counter `smode` selects, or nothing. -/
theorem showDigit_cases (s : State) (pos : DigitPos) :
    (∃ c, counterOfMode s.smode = some c ∧ s.showDigit pos = s.writeBcd ((s.counter c).digit pos)) ∨
    (counterOfMode s.smode = none ∧ s.showDigit pos = s) := by
  cases h : counterOfMode s.smode <;> simp [State.showDigit, h]

/-- SWS: the sample, and the switch's action exactly when the new history fires. -/
theorem sampleSwitch_cases (s : State) (i : SwitchId) :
    (fires (shiftSample (s.hist i) (s.swPressedAt i)) = true ∧
      s.sampleSwitch i = (s.sample i (s.swPressedAt i)).switchAction i) ∨
    (fires (shiftSample (s.hist i) (s.swPressedAt i)) = false ∧ s.sampleSwitch i = s.sample i (s.swPressedAt i)) := by
  cases h : fires (shiftSample (s.hist i) (s.swPressedAt i)) <;> simp [State.sampleSwitch, State.sample, h]

/-- The bits of a new history: 15 to 13 are 1, bit 0 is 0 exactly for a pressed sample, the others move up by one. -/
theorem shiftSample_bit (h : Hist) (p : Bool) (k : Nat) (hk : k < 16) :
    (shiftSample h p).getLsbD k =
      (decide (13 ≤ k) || if k = 0 then !p else h.getLsbD (k - 1)) := by
  unfold shiftSample forceMask
  rcases k with _ | k
  · cases p <;> simp
  · have hm : ((0xE000 : Hist).getLsbD (k + 1)) = decide (13 ≤ k + 1) := by
      have : ∀ j : Fin 16, ((0xE000 : Hist).getLsbD j) = decide (13 ≤ j.val) := by decide
      exact this ⟨k + 1, hk⟩
    have hp : ((if p then 0 else 1 : Hist).getLsbD (k + 1)) = false := by
      cases p <;> simp
    simp only [BitVec.getLsbD_or, hm, hp, BitVec.getLsbD_shiftLeft]
    simp [hk, Bool.or_comm]

@[simp] theorem mapCounter_histHour (s : State) (c : CounterId) (f : TimeCounter → TimeCounter) : (s.mapCounter c f).histHour = s.histHour := by
  simp [State.mapCounter]
@[simp] theorem mapCounter_histMinute (s : State) (c : CounterId) (f : TimeCounter → TimeCounter) : (s.mapCounter c f).histMinute = s.histMinute := by
  simp [State.mapCounter]
@[simp] theorem mapCounter_histMode (s : State) (c : CounterId) (f : TimeCounter → TimeCounter) : (s.mapCounter c f).histMode = s.histMode := by
  simp [State.mapCounter]
@[simp] theorem mapCounter_mode (s : State) (c : CounterId) (f : TimeCounter → TimeCounter) : (s.mapCounter c f).mode = s.mode := by
  simp [State.mapCounter]
@[simp] theorem mapCounter_smode (s : State) (c : CounterId) (f : TimeCounter → TimeCounter) : (s.mapCounter c f).smode = s.smode := by
  simp [State.mapCounter]
@[simp] theorem mapCounter_colonEn (s : State) (c : CounterId) (f : TimeCounter → TimeCounter) : (s.mapCounter c f).colonEn = s.colonEn := by
  simp [State.mapCounter]
@[simp] theorem mapCounter_dsel (s : State) (c : CounterId) (f : TimeCounter → TimeCounter) : (s.mapCounter c f).dsel = s.dsel := by
  simp [State.mapCounter]
@[simp] theorem mapCounter_bcd (s : State) (c : CounterId) (f : TimeCounter → TimeCounter) : (s.mapCounter c f).bcd = s.bcd := by
  simp [State.mapCounter]
@[simp] theorem mapCounter_ph (s : State) (c : CounterId) (f : TimeCounter → TimeCounter) : (s.mapCounter c f).ph = s.ph := by
  simp [State.mapCounter]
@[simp] theorem mapCounter_ports (s : State) (c : CounterId) (f : TimeCounter → TimeCounter) : (s.mapCounter c f).ports = s.ports := by
  simp [State.mapCounter]
@[simp] theorem mapCounter_cmdFire (s : State) (c : CounterId) (f : TimeCounter → TimeCounter) : (s.mapCounter c f).cmdFire = s.cmdFire := by
  simp [State.mapCounter]
@[simp] theorem mapCounter_params (s : State) (c : CounterId) (f : TimeCounter → TimeCounter) : (s.mapCounter c f).params = s.params := by
  simp [State.mapCounter]
@[simp] theorem mapCounter_draws (s : State) (c : CounterId) (f : TimeCounter → TimeCounter) : (s.mapCounter c f).draws = s.draws := by
  simp [State.mapCounter]

@[simp] theorem takeTick_histHour (s : State) : (s.takeTick).histHour = s.histHour := by
  rcases takeTick_cases s with ⟨c, -, h⟩ | ⟨-, h⟩ <;> simp [h]
@[simp] theorem takeTick_histMinute (s : State) : (s.takeTick).histMinute = s.histMinute := by
  rcases takeTick_cases s with ⟨c, -, h⟩ | ⟨-, h⟩ <;> simp [h]
@[simp] theorem takeTick_histMode (s : State) : (s.takeTick).histMode = s.histMode := by
  rcases takeTick_cases s with ⟨c, -, h⟩ | ⟨-, h⟩ <;> simp [h]
@[simp] theorem takeTick_mode (s : State) : (s.takeTick).mode = s.mode := by
  rcases takeTick_cases s with ⟨c, -, h⟩ | ⟨-, h⟩ <;> simp [h]
@[simp] theorem takeTick_smode (s : State) : (s.takeTick).smode = s.smode := by
  rcases takeTick_cases s with ⟨c, -, h⟩ | ⟨-, h⟩ <;> simp [h]
@[simp] theorem takeTick_colonEn (s : State) : (s.takeTick).colonEn = s.colonEn := by
  rcases takeTick_cases s with ⟨c, -, h⟩ | ⟨-, h⟩ <;> simp [h]
@[simp] theorem takeTick_dsel (s : State) : (s.takeTick).dsel = s.dsel := by
  rcases takeTick_cases s with ⟨c, -, h⟩ | ⟨-, h⟩ <;> simp [h]
@[simp] theorem takeTick_bcd (s : State) : (s.takeTick).bcd = s.bcd := by
  rcases takeTick_cases s with ⟨c, -, h⟩ | ⟨-, h⟩ <;> simp [h]
@[simp] theorem takeTick_ph (s : State) : (s.takeTick).ph = s.ph := by
  rcases takeTick_cases s with ⟨c, -, h⟩ | ⟨-, h⟩ <;> simp [h]
@[simp] theorem takeTick_ports (s : State) : (s.takeTick).ports = s.ports := by
  rcases takeTick_cases s with ⟨c, -, h⟩ | ⟨-, h⟩ <;> simp [h]
@[simp] theorem takeTick_cmdFire (s : State) : (s.takeTick).cmdFire = s.cmdFire := by
  rcases takeTick_cases s with ⟨c, -, h⟩ | ⟨-, h⟩ <;> simp [h]
@[simp] theorem takeTick_params (s : State) : (s.takeTick).params = s.params := by
  rcases takeTick_cases s with ⟨c, -, h⟩ | ⟨-, h⟩ <;> simp [h]
@[simp] theorem takeTick_draws (s : State) : (s.takeTick).draws = s.draws := by
  rcases takeTick_cases s with ⟨c, -, h⟩ | ⟨-, h⟩ <;> simp [h]

@[simp] theorem toggleMode_clock (s : State) : (s.toggleMode).clock = s.clock := by
  rcases toggleMode_cases s with ⟨-, h⟩ | ⟨-, h⟩ | ⟨-, h⟩ | ⟨-, h⟩ <;> simp [h]
@[simp] theorem toggleMode_histHour (s : State) : (s.toggleMode).histHour = s.histHour := by
  rcases toggleMode_cases s with ⟨-, h⟩ | ⟨-, h⟩ | ⟨-, h⟩ | ⟨-, h⟩ <;> simp [h]
@[simp] theorem toggleMode_histMinute (s : State) : (s.toggleMode).histMinute = s.histMinute := by
  rcases toggleMode_cases s with ⟨-, h⟩ | ⟨-, h⟩ | ⟨-, h⟩ | ⟨-, h⟩ <;> simp [h]
@[simp] theorem toggleMode_histMode (s : State) : (s.toggleMode).histMode = s.histMode := by
  rcases toggleMode_cases s with ⟨-, h⟩ | ⟨-, h⟩ | ⟨-, h⟩ | ⟨-, h⟩ <;> simp [h]
@[simp] theorem toggleMode_smode (s : State) : (s.toggleMode).smode = s.smode := by
  rcases toggleMode_cases s with ⟨-, h⟩ | ⟨-, h⟩ | ⟨-, h⟩ | ⟨-, h⟩ <;> simp [h]
@[simp] theorem toggleMode_dsel (s : State) : (s.toggleMode).dsel = s.dsel := by
  rcases toggleMode_cases s with ⟨-, h⟩ | ⟨-, h⟩ | ⟨-, h⟩ | ⟨-, h⟩ <;> simp [h]
@[simp] theorem toggleMode_bcd (s : State) : (s.toggleMode).bcd = s.bcd := by
  rcases toggleMode_cases s with ⟨-, h⟩ | ⟨-, h⟩ | ⟨-, h⟩ | ⟨-, h⟩ <;> simp [h]
@[simp] theorem toggleMode_ph (s : State) : (s.toggleMode).ph = s.ph := by
  rcases toggleMode_cases s with ⟨-, h⟩ | ⟨-, h⟩ | ⟨-, h⟩ | ⟨-, h⟩ <;> simp [h]
@[simp] theorem toggleMode_ports (s : State) : (s.toggleMode).ports = s.ports := by
  rcases toggleMode_cases s with ⟨-, h⟩ | ⟨-, h⟩ | ⟨-, h⟩ | ⟨-, h⟩ <;> simp [h]
@[simp] theorem toggleMode_cmdFire (s : State) : (s.toggleMode).cmdFire = s.cmdFire := by
  rcases toggleMode_cases s with ⟨-, h⟩ | ⟨-, h⟩ | ⟨-, h⟩ | ⟨-, h⟩ <;> simp [h]
@[simp] theorem toggleMode_params (s : State) : (s.toggleMode).params = s.params := by
  rcases toggleMode_cases s with ⟨-, h⟩ | ⟨-, h⟩ | ⟨-, h⟩ | ⟨-, h⟩ <;> simp [h]
@[simp] theorem toggleMode_draws (s : State) : (s.toggleMode).draws = s.draws := by
  rcases toggleMode_cases s with ⟨-, h⟩ | ⟨-, h⟩ | ⟨-, h⟩ | ⟨-, h⟩ <;> simp [h]

@[simp] theorem adjustHour_histHour (s : State) : (s.adjustHour).histHour = s.histHour := by
  simp [State.adjustHour]
@[simp] theorem adjustHour_histMinute (s : State) : (s.adjustHour).histMinute = s.histMinute := by
  simp [State.adjustHour]
@[simp] theorem adjustHour_histMode (s : State) : (s.adjustHour).histMode = s.histMode := by
  simp [State.adjustHour]
@[simp] theorem adjustHour_mode (s : State) : (s.adjustHour).mode = s.mode := by
  simp [State.adjustHour]
@[simp] theorem adjustHour_smode (s : State) : (s.adjustHour).smode = s.smode := by
  simp [State.adjustHour]
@[simp] theorem adjustHour_colonEn (s : State) : (s.adjustHour).colonEn = s.colonEn := by
  simp [State.adjustHour]
@[simp] theorem adjustHour_dsel (s : State) : (s.adjustHour).dsel = s.dsel := by
  simp [State.adjustHour]
@[simp] theorem adjustHour_bcd (s : State) : (s.adjustHour).bcd = s.bcd := by
  simp [State.adjustHour]
@[simp] theorem adjustHour_ph (s : State) : (s.adjustHour).ph = s.ph := by
  simp [State.adjustHour]
@[simp] theorem adjustHour_ports (s : State) : (s.adjustHour).ports = s.ports := by
  simp [State.adjustHour]
@[simp] theorem adjustHour_cmdFire (s : State) : (s.adjustHour).cmdFire = s.cmdFire := by
  simp [State.adjustHour]
@[simp] theorem adjustHour_params (s : State) : (s.adjustHour).params = s.params := by
  simp [State.adjustHour]
@[simp] theorem adjustHour_draws (s : State) : (s.adjustHour).draws = s.draws := by
  simp [State.adjustHour]

@[simp] theorem adjustHour_timer (s : State) : s.adjustHour.timer = s.timer := rfl

@[simp] theorem adjustMinute_histHour (s : State) : (s.adjustMinute).histHour = s.histHour := by
  simp [State.adjustMinute]
@[simp] theorem adjustMinute_histMinute (s : State) : (s.adjustMinute).histMinute = s.histMinute := by
  simp [State.adjustMinute]
@[simp] theorem adjustMinute_histMode (s : State) : (s.adjustMinute).histMode = s.histMode := by
  simp [State.adjustMinute]
@[simp] theorem adjustMinute_mode (s : State) : (s.adjustMinute).mode = s.mode := by
  simp [State.adjustMinute]
@[simp] theorem adjustMinute_smode (s : State) : (s.adjustMinute).smode = s.smode := by
  simp [State.adjustMinute]
@[simp] theorem adjustMinute_colonEn (s : State) : (s.adjustMinute).colonEn = s.colonEn := by
  simp [State.adjustMinute]
@[simp] theorem adjustMinute_dsel (s : State) : (s.adjustMinute).dsel = s.dsel := by
  simp [State.adjustMinute]
@[simp] theorem adjustMinute_bcd (s : State) : (s.adjustMinute).bcd = s.bcd := by
  simp [State.adjustMinute]
@[simp] theorem adjustMinute_ph (s : State) : (s.adjustMinute).ph = s.ph := by
  simp [State.adjustMinute]
@[simp] theorem adjustMinute_ports (s : State) : (s.adjustMinute).ports = s.ports := by
  simp [State.adjustMinute]
@[simp] theorem adjustMinute_cmdFire (s : State) : (s.adjustMinute).cmdFire = s.cmdFire := by
  simp [State.adjustMinute]
@[simp] theorem adjustMinute_params (s : State) : (s.adjustMinute).params = s.params := by
  simp [State.adjustMinute]
@[simp] theorem adjustMinute_draws (s : State) : (s.adjustMinute).draws = s.draws := by
  simp [State.adjustMinute]

@[simp] theorem adjustMinute_timer (s : State) : s.adjustMinute.timer = s.timer := rfl

@[simp] theorem sample_clock (s : State) (i : SwitchId) (p : Bool) : (s.sample i p).clock = s.clock := by
  simp [State.sample]
@[simp] theorem sample_timer (s : State) (i : SwitchId) (p : Bool) : (s.sample i p).timer = s.timer := by
  simp [State.sample]
@[simp] theorem sample_mode (s : State) (i : SwitchId) (p : Bool) : (s.sample i p).mode = s.mode := by
  simp [State.sample]
@[simp] theorem sample_smode (s : State) (i : SwitchId) (p : Bool) : (s.sample i p).smode = s.smode := by
  simp [State.sample]
@[simp] theorem sample_colonEn (s : State) (i : SwitchId) (p : Bool) : (s.sample i p).colonEn = s.colonEn := by
  simp [State.sample]
@[simp] theorem sample_dsel (s : State) (i : SwitchId) (p : Bool) : (s.sample i p).dsel = s.dsel := by
  simp [State.sample]
@[simp] theorem sample_bcd (s : State) (i : SwitchId) (p : Bool) : (s.sample i p).bcd = s.bcd := by
  simp [State.sample]
@[simp] theorem sample_ph (s : State) (i : SwitchId) (p : Bool) : (s.sample i p).ph = s.ph := by
  simp [State.sample]
@[simp] theorem sample_ports (s : State) (i : SwitchId) (p : Bool) : (s.sample i p).ports = s.ports := by
  simp [State.sample]
@[simp] theorem sample_cmdFire (s : State) (i : SwitchId) (p : Bool) : (s.sample i p).cmdFire = s.cmdFire := by
  simp [State.sample]
@[simp] theorem sample_params (s : State) (i : SwitchId) (p : Bool) : (s.sample i p).params = s.params := by
  simp [State.sample]
@[simp] theorem sample_draws (s : State) (i : SwitchId) (p : Bool) : (s.sample i p).draws = s.draws := by
  simp [State.sample]

@[simp] theorem sample_hist (s : State) (i : SwitchId) (p : Bool) :
    (s.sample i p).hist i = shiftSample (s.hist i) p := by simp [State.sample]

@[simp] theorem switchAction_histHour (s : State) (i : SwitchId) : (s.switchAction i).histHour = s.histHour := by
  cases i <;> simp [State.switchAction]
@[simp] theorem switchAction_histMinute (s : State) (i : SwitchId) : (s.switchAction i).histMinute = s.histMinute := by
  cases i <;> simp [State.switchAction]
@[simp] theorem switchAction_histMode (s : State) (i : SwitchId) : (s.switchAction i).histMode = s.histMode := by
  cases i <;> simp [State.switchAction]
@[simp] theorem switchAction_smode (s : State) (i : SwitchId) : (s.switchAction i).smode = s.smode := by
  cases i <;> simp [State.switchAction]
@[simp] theorem switchAction_dsel (s : State) (i : SwitchId) : (s.switchAction i).dsel = s.dsel := by
  cases i <;> simp [State.switchAction]
@[simp] theorem switchAction_bcd (s : State) (i : SwitchId) : (s.switchAction i).bcd = s.bcd := by
  cases i <;> simp [State.switchAction]
@[simp] theorem switchAction_ph (s : State) (i : SwitchId) : (s.switchAction i).ph = s.ph := by
  cases i <;> simp [State.switchAction]
@[simp] theorem switchAction_ports (s : State) (i : SwitchId) : (s.switchAction i).ports = s.ports := by
  cases i <;> simp [State.switchAction]
@[simp] theorem switchAction_cmdFire (s : State) (i : SwitchId) : (s.switchAction i).cmdFire = s.cmdFire := by
  cases i <;> simp [State.switchAction]
@[simp] theorem switchAction_params (s : State) (i : SwitchId) : (s.switchAction i).params = s.params := by
  cases i <;> simp [State.switchAction]
@[simp] theorem switchAction_draws (s : State) (i : SwitchId) : (s.switchAction i).draws = s.draws := by
  cases i <;> simp [State.switchAction]

@[simp] theorem sampleSwitch_smode (s : State) (i : SwitchId) : (s.sampleSwitch i).smode = s.smode := by
  rcases sampleSwitch_cases s i with ⟨-, h⟩ | ⟨-, h⟩ <;> simp [h]
@[simp] theorem sampleSwitch_dsel (s : State) (i : SwitchId) : (s.sampleSwitch i).dsel = s.dsel := by
  rcases sampleSwitch_cases s i with ⟨-, h⟩ | ⟨-, h⟩ <;> simp [h]
@[simp] theorem sampleSwitch_bcd (s : State) (i : SwitchId) : (s.sampleSwitch i).bcd = s.bcd := by
  rcases sampleSwitch_cases s i with ⟨-, h⟩ | ⟨-, h⟩ <;> simp [h]
@[simp] theorem sampleSwitch_ph (s : State) (i : SwitchId) : (s.sampleSwitch i).ph = s.ph := by
  rcases sampleSwitch_cases s i with ⟨-, h⟩ | ⟨-, h⟩ <;> simp [h]
@[simp] theorem sampleSwitch_ports (s : State) (i : SwitchId) : (s.sampleSwitch i).ports = s.ports := by
  rcases sampleSwitch_cases s i with ⟨-, h⟩ | ⟨-, h⟩ <;> simp [h]
@[simp] theorem sampleSwitch_cmdFire (s : State) (i : SwitchId) : (s.sampleSwitch i).cmdFire = s.cmdFire := by
  rcases sampleSwitch_cases s i with ⟨-, h⟩ | ⟨-, h⟩ <;> simp [h]
@[simp] theorem sampleSwitch_params (s : State) (i : SwitchId) : (s.sampleSwitch i).params = s.params := by
  rcases sampleSwitch_cases s i with ⟨-, h⟩ | ⟨-, h⟩ <;> simp [h]
@[simp] theorem sampleSwitch_draws (s : State) (i : SwitchId) : (s.sampleSwitch i).draws = s.draws := by
  rcases sampleSwitch_cases s i with ⟨-, h⟩ | ⟨-, h⟩ <;> simp [h]

@[simp] theorem sampleSwitch_hist (s : State) (i : SwitchId) :
    (s.sampleSwitch i).hist i = shiftSample (s.hist i) (s.swPressedAt i) := by
  rcases sampleSwitch_cases s i with ⟨-, h⟩ | ⟨-, h⟩ <;> rw [h]
  · cases i <;> simp only [hist_hour, hist_minute, hist_mode, switchAction_histHour, switchAction_histMinute,
      switchAction_histMode] <;> rfl
  · simp

theorem sampleSwitch_hist_ne (s : State) (i j : SwitchId) (hj : j ≠ i) : (s.sampleSwitch i).hist j = s.hist j := by
  rcases sampleSwitch_cases s i with ⟨-, h⟩ | ⟨-, h⟩ <;> rw [h]
  · cases i <;> cases j <;> first | exact absurd rfl hj | simp [State.sample, State.setHist]
  · exact hist_setHist_ne s i j _ hj

@[simp] theorem showDigit_clock (s : State) (pos : DigitPos) : (s.showDigit pos).clock = s.clock := by
  rcases showDigit_cases s pos with ⟨c, -, h⟩ | ⟨-, h⟩ <;> simp [h]
@[simp] theorem showDigit_timer (s : State) (pos : DigitPos) : (s.showDigit pos).timer = s.timer := by
  rcases showDigit_cases s pos with ⟨c, -, h⟩ | ⟨-, h⟩ <;> simp [h]
@[simp] theorem showDigit_histHour (s : State) (pos : DigitPos) : (s.showDigit pos).histHour = s.histHour := by
  rcases showDigit_cases s pos with ⟨c, -, h⟩ | ⟨-, h⟩ <;> simp [h]
@[simp] theorem showDigit_histMinute (s : State) (pos : DigitPos) : (s.showDigit pos).histMinute = s.histMinute := by
  rcases showDigit_cases s pos with ⟨c, -, h⟩ | ⟨-, h⟩ <;> simp [h]
@[simp] theorem showDigit_histMode (s : State) (pos : DigitPos) : (s.showDigit pos).histMode = s.histMode := by
  rcases showDigit_cases s pos with ⟨c, -, h⟩ | ⟨-, h⟩ <;> simp [h]
@[simp] theorem showDigit_mode (s : State) (pos : DigitPos) : (s.showDigit pos).mode = s.mode := by
  rcases showDigit_cases s pos with ⟨c, -, h⟩ | ⟨-, h⟩ <;> simp [h]
@[simp] theorem showDigit_smode (s : State) (pos : DigitPos) : (s.showDigit pos).smode = s.smode := by
  rcases showDigit_cases s pos with ⟨c, -, h⟩ | ⟨-, h⟩ <;> simp [h]
@[simp] theorem showDigit_colonEn (s : State) (pos : DigitPos) : (s.showDigit pos).colonEn = s.colonEn := by
  rcases showDigit_cases s pos with ⟨c, -, h⟩ | ⟨-, h⟩ <;> simp [h]
@[simp] theorem showDigit_dsel (s : State) (pos : DigitPos) : (s.showDigit pos).dsel = s.dsel := by
  rcases showDigit_cases s pos with ⟨c, -, h⟩ | ⟨-, h⟩ <;> simp [h]
@[simp] theorem showDigit_ph (s : State) (pos : DigitPos) : (s.showDigit pos).ph = s.ph := by
  rcases showDigit_cases s pos with ⟨c, -, h⟩ | ⟨-, h⟩ <;> simp [h]
@[simp] theorem showDigit_ports (s : State) (pos : DigitPos) : (s.showDigit pos).ports = s.ports := by
  rcases showDigit_cases s pos with ⟨c, -, h⟩ | ⟨-, h⟩ <;> simp [h]
@[simp] theorem showDigit_cmdFire (s : State) (pos : DigitPos) : (s.showDigit pos).cmdFire = s.cmdFire := by
  rcases showDigit_cases s pos with ⟨c, -, h⟩ | ⟨-, h⟩ <;> simp [h]
@[simp] theorem showDigit_params (s : State) (pos : DigitPos) : (s.showDigit pos).params = s.params := by
  rcases showDigit_cases s pos with ⟨c, -, h⟩ | ⟨-, h⟩ <;> simp [h]
@[simp] theorem showDigit_draws (s : State) (pos : DigitPos) : (s.showDigit pos).draws = s.draws := by
  rcases showDigit_cases s pos with ⟨c, -, h⟩ | ⟨-, h⟩ <;> simp [h]

end Sys2Proof.Machine
end

