-- ==== Sys2Proof/Laws/Exec.lean ====
section
/-! SUPPORT. Every operation has a next state, named `after`; what a step can be. -/

namespace Sys2Proof.Machine

/-- The state an operation leaves. -/
def after (i : Instr) (s : State) : State :=
  match i with
  | .incs c => s.mapCounter c (incSecond c)
  | .incm c r => s.mapCounter c (incMinute c r)
  | .inch c => s.mapCounter c (incHour c)
  | .clrt => s.clearTimer
  | .clrs => s.clearClockSeconds
  | .samp i p => s.sample i p
  | .sws i => s.sampleSwitch i
  | .tick => s.takeTick
  | .adjh => s.adjustHour
  | .adjm => s.adjustMinute
  | .togl => s.toggleMode
  | .ldm => { s with smode := s.mode }
  | .sel pos => s.selectDigit pos
  | .dsl pos => s.deselectDigit pos
  | .wrd pos => s.showDigit pos
  | .wrb => s.writeBcd s.params.offValue
  | .hld _ => s

/-- The meaning of an operation is its `after` state. -/
theorem exec_eq_after (i : Instr) (s : State) : exec i s = .next (after i s) := by cases i <;> rfl

theorem exec_next_iff (i : Instr) (s t : State) : exec i s = .next t ↔ after i s = t := by
  rw [exec_eq_after]; exact ⟨fun h => by injection h, fun h => by rw [h]⟩

theorem perform_eq (i : Instr) (s : State) (f : State → State) : perform i s f = .next (f (after i s)) := by
  simp [perform, exec_eq_after]

/-! No operation touches the phase, the ports, the parameters or the model's counter (42 R120). -/

@[simp] theorem after_ph (i : Instr) (s : State) : (after i s).ph = s.ph := by cases i <;> simp [after]
@[simp] theorem after_ports (i : Instr) (s : State) : (after i s).ports = s.ports := by cases i <;> simp [after]
@[simp] theorem after_cmdFire (i : Instr) (s : State) : (after i s).cmdFire = s.cmdFire := by cases i <;> simp [after]
@[simp] theorem after_params (i : Instr) (s : State) : (after i s).params = s.params := by cases i <;> simp [after]
@[simp] theorem after_draws (i : Instr) (s : State) : (after i s).draws = s.draws := by cases i <;> simp [after]

/-- What a step is: by the ports, the reset, the tick, a command or its refusal, a scanner operation or its refusal. -/
theorem step_cases (s : State) :
    (s.ports.rst = true ∧ step s = .next (State.atReset s.params s.draws)) ∨
    (s.ports.rst = false ∧ s.ports.tick = true ∧ step s = .next (s.takeTick.endStep (Config.freeFire s.draws) true)) ∨
    (s.ports.rst = false ∧ s.ports.tick = false ∧ s.ports.cmdValid = true ∧
      ((∃ i, decode s.ports.cmd = .op i ∧ step s = .next ((after i s).endStep (fireResult i s) false)) ∨
        ∃ why, decode s.ports.cmd = .reserved why ∧ step s = .refused (.reservedWord s.ports.cmd why))) ∨
    (s.ports.rst = false ∧ s.ports.tick = false ∧ s.ports.cmdValid = false ∧
      ((∃ w, sequencerWord s.params.offDigit s.ph = some w ∧
          ((∃ i, decode w = .op i ∧
              step s = .next ({ after i s with ph := nextPhase s.ph (after i s).smode }.endStep (Config.freeFire s.draws) false)) ∨
            ∃ why, decode w = .reserved why ∧ step s = .refused (.reservedWord w why))) ∨
        (sequencerWord s.params.offDigit s.ph = none ∧ step s = .refused (.noSequencerRow s.ph)))) := by
  cases hr : s.ports.rst
  · cases ht : s.ports.tick
    · cases hc : s.ports.cmdValid
      · have hs : step s = scannerStep s := by simp [step, hr, ht, hc]
        refine .inr (.inr (.inr ⟨rfl, rfl, rfl, ?_⟩))
        rw [hs, scannerStep]
        cases hw : sequencerWord s.params.offDigit s.ph with
        | none => exact .inr ⟨rfl, rfl⟩
        | some w =>
          refine .inl ⟨w, rfl, ?_⟩
          cases hd : decode w with
          | op i => exact .inl ⟨i, rfl, by simp [hd, perform_eq]⟩
          | reserved why => exact .inr ⟨why, rfl, by simp [hd]⟩
      · have hs : step s = commandStep s := by simp [step, hr, ht, hc]
        refine .inr (.inr (.inl ⟨rfl, rfl, rfl, ?_⟩))
        rw [hs, commandStep]
        cases hd : decode s.ports.cmd with
        | op i => exact .inl ⟨i, rfl, by simp [perform_eq]⟩
        | reserved why => exact .inr ⟨why, rfl, rfl⟩
    · have hs : step s = tickStep s := by simp [step, hr, ht]
      exact .inr (.inl ⟨rfl, rfl, by rw [hs, tickStep, perform_eq]; rfl⟩)
  · exact .inl ⟨rfl, by simp [step, hr, resetStep]⟩

/-- A step that answers `t`: the reset, the tick, a command's operation, or the sequencer's operation. -/
theorem step_next_cases {s t : State} (h : step s = .next t) :
    (s.ports.rst = true ∧ t = State.atReset s.params s.draws) ∨
    (s.ports.rst = false ∧ s.ports.tick = true ∧ t = s.takeTick.endStep (Config.freeFire s.draws) true) ∨
    (s.ports.rst = false ∧ s.ports.tick = false ∧ s.ports.cmdValid = true ∧
      ∃ i, decode s.ports.cmd = .op i ∧ t = (after i s).endStep (fireResult i s) false) ∨
    (s.ports.rst = false ∧ s.ports.tick = false ∧ s.ports.cmdValid = false ∧
      ∃ w i, sequencerWord s.params.offDigit s.ph = some w ∧ decode w = .op i ∧
        t = { after i s with ph := nextPhase s.ph (after i s).smode }.endStep (Config.freeFire s.draws) false) := by
  rcases step_cases s with ⟨h1, e⟩ | ⟨h1, h2, e⟩ | ⟨h1, h2, h3, ⟨i, hi, e⟩ | ⟨y, -, e⟩⟩ |
      ⟨h1, h2, h3, ⟨w, hw, ⟨i, hi, e⟩ | ⟨y, -, e⟩⟩ | ⟨-, e⟩⟩ <;> rw [e] at h <;> cases h
  · exact .inl ⟨h1, rfl⟩
  · exact .inr (.inl ⟨h1, h2, rfl⟩)
  · exact .inr (.inr (.inl ⟨h1, h2, h3, i, hi, rfl⟩))
  · exact .inr (.inr (.inr ⟨h1, h2, h3, w, i, hw, hi, rfl⟩))

end Sys2Proof.Machine
end

