-- ==== Sys2Proof/Laws/PerInstr.lean ====
section
/-! SUPPORT. The family EncodedWordFormed: the word of every operation is one of the 40 defined words (spec 30 R75). -/

namespace Sys2Proof.Laws

/-- The operation's word is well-formed by the list of 30 R75. -/
def EncodedWordFormed.Statement (i : Instr) : Prop := (encode i).wellFormed = true

theorem EncodedWordFormed.incs (c : CounterId) : Statement (.incs c) := by cases c <;> rfl
theorem EncodedWordFormed.incm (c : CounterId) (ripple : Bool) : Statement (.incm c ripple) := by
  cases c <;> cases ripple <;> rfl
theorem EncodedWordFormed.inch (c : CounterId) : Statement (.inch c) := by cases c <;> rfl
theorem EncodedWordFormed.clrt : Statement .clrt := rfl
theorem EncodedWordFormed.clrs : Statement .clrs := rfl
theorem EncodedWordFormed.samp (i : SwitchId) (pressed : Bool) : Statement (.samp i pressed) := by
  cases i <;> cases pressed <;> rfl
theorem EncodedWordFormed.sws (i : SwitchId) : Statement (.sws i) := by cases i <;> rfl
theorem EncodedWordFormed.tick : Statement .tick := rfl
theorem EncodedWordFormed.adjh : Statement .adjh := rfl
theorem EncodedWordFormed.adjm : Statement .adjm := rfl
theorem EncodedWordFormed.togl : Statement .togl := rfl
theorem EncodedWordFormed.ldm : Statement .ldm := rfl
theorem EncodedWordFormed.sel (pos : DigitPos) : Statement (.sel pos) := by cases pos <;> rfl
theorem EncodedWordFormed.dsl (pos : DigitPos) : Statement (.dsl pos) := by cases pos <;> rfl
theorem EncodedWordFormed.wrd (pos : DigitPos) : Statement (.wrd pos) := by cases pos <;> rfl
theorem EncodedWordFormed.wrb : Statement .wrb := rfl
theorem EncodedWordFormed.hld (k : HoldKind) : Statement (.hld k) := by cases k <;> rfl

end Sys2Proof.Laws
end

