-- ==== Sys2Proof/Tests/Slice0.lean ====
section
/-! SUPPORT. Tests. Expected results are the vectors of spec 95 (S1 to S7, V1 to V30) and the examples of the semantics
rules; the witnesses at the end show a state and operands that meet each statement's hypotheses together. -/

namespace Sys2Proof.Tests

open Sys2Proof.Machine

/-- A counter from its reading `h10 h1 : m10 m1 : sec`. -/
def time (h10 h1 m10 m1 : Digit) (sec : Seconds) : TimeCounter := ⟨sec, m1, m10, h1, h10⟩

/-- `clock` 13:37:59, `timer` 00:42:10 (V13), CLOCK mode, top of a pass, quiet ports, `OFF_DIGIT` 3, `OFF_VALUE` 15. -/
def base : State :=
  { clock := time 1 3 3 7 59, timer := time 0 0 4 2 10, histHour := 0, histMinute := 0, histMode := 0, mode := 0,
    smode := 0, colonEn := true, dsel := 0, bcd := 0, ph := 0, ports := .quiet, cmdFire := false,
    params := ⟨⟨13, 3, 7, 59⟩, .oneMinute, 15, 0⟩, draws := 1 }

/-- The outcome is a next state with the property. -/
def nextHas (o : Host.Outcome State Fault Refusal) (p : State → Bool) : Bool :=
  match o with
  | .next t => p t
  | _ => false

/-- The outcome is a refusal for the reason. -/
def refusedFor (o : Host.Outcome State Fault Refusal) (r : Refusal) : Bool :=
  match o with
  | .refused q => q == r
  | _ => false

/-- Performing an operation takes counter `c` from `t` to `u`. -/
def takes (i : Instr) (c : CounterId) (t u : TimeCounter) : Bool :=
  nextHas (exec i (base.setCounter c t)) fun x => x == base.setCounter c u

/-! ### Well-formed words, decoding, encoding (V30; bit patterns from 30 R74) -/

theorem test_wellFormed_refuses_major : (OpWord.majorOk 0x00 || OpWord.majorOk 0xB0) = false := by decide
theorem test_wellFormed_refuses_operand :
    (OpWord.operandOk 0x63 || OpWord.operandOk 0x67 || OpWord.operandOk 0x73 || OpWord.operandOk 0xF3) = false := by decide
theorem test_wellFormed_refuses_fixed_bits :
    (OpWord.fixedOk 0x12 || OpWord.fixedOk 0x24 || OpWord.fixedOk 0x40 || OpWord.fixedOk 0x68 || OpWord.fixedOk 0xE5) = false := by
  decide
theorem test_wellFormed_whole : OpWord.wellFormed 0x63 = false ∧ OpWord.wellFormed 0xFF = false ∧ OpWord.wellFormed 0x66 = true := by
  decide

theorem test_decode_timekeeper : decode 0b00010000 = .op (.incs .clock) ∧ decode 0b00100001 = .op (.incm .timer false) ∧
    decode 0b00100010 = .op (.incm .clock true) ∧ decode 0b00110001 = .op (.inch .timer) ∧
    decode 0b01000001 = .op .clrt ∧ decode 0b01010000 = .op .clrs ∧ decode 0b10000000 = .op .tick := by decide
theorem test_decode_mode : decode 0b10100000 = .op .togl := by decide
theorem test_decode_debounce : decode 0b01100010 = .op (.samp .modeSwitch false) ∧
    decode 0b01100101 = .op (.samp .minuteAdjust true) ∧ decode 0b01110000 = .op (.sws .hourAdjust) := by decide
theorem test_decode_scanner : decode 0b11000000 = .op .ldm ∧ decode 0b11010010 = .op (.sel .tenMinute) ∧
    decode 0b11010110 = .op (.dsl .tenMinute) ∧ decode 0b11100011 = .op (.wrd .oneMinute) ∧ decode 0b11100100 = .op .wrb ∧
    decode 0b11110010 = .op (.hld .poll) ∧ decode 0b10010000 = .op .adjh ∧ decode 0b10010001 = .op .adjm := by decide
theorem test_decode_reserved : decode 0x12 = .reserved .fixedBits ∧ decode 0x63 = .reserved .operand ∧
    decode 0xB0 = .reserved .major ∧ decode 0xF3 = .reserved .operand ∧ decodeTableWord 8 0x51 = none := by decide
theorem test_encode : encode (.incm .timer false) = 0x21 ∧ encode (.samp .modeSwitch true) = 0x66 ∧
    encode (.dsl .oneHour) = 0xD5 := by decide
theorem test_written : Instr.written (.incm .clock true) = "INCM 0,1" ∧ Instr.written (.sel .oneMinute) = "SEL 3" := by decide
theorem test_wellFormed_iff_decodes : ∀ n : Fin 64, ∀ m : Fin 4,
    OpWord.wellFormed (.ofNat 8 (n.val * 4 + m.val)) = (decodeTableWord 8 (n.val * 4 + m.val)).isSome := by decide

/-! ### The operations -/

-- V1
theorem test_incs : takes (.incs .clock) .clock (time 2 3 5 9 59) (time 0 0 0 0 0) ∧
    takes (.incs .timer) .timer (time 9 9 5 9 59) (time 0 0 0 0 0) ∧
    takes (.incs .timer) .timer (time 2 3 5 9 59) (time 2 4 0 0 0) := by decide
-- V6
theorem test_incs_unreachable : takes (.incs .clock) .clock (time 0 0 0 0 60) (time 0 0 0 0 61) ∧
    takes (.incs .clock) .clock (time 0 0 0 0 63) (time 0 0 0 0 0) := by decide
-- V2
theorem test_incm : takes (.incm .clock false) .clock (time 1 2 5 9 33) (time 1 2 0 0 33) ∧
    takes (.incm .clock true) .clock (time 2 3 5 9 33) (time 0 0 0 0 33) ∧
    takes (.incm .timer true) .timer (time 2 3 5 9 10) (time 2 4 0 0 10) := by decide
-- V6
theorem test_incm_unreachable : takes (.incm .clock true) .clock (time 0 0 2 15 0) (time 0 0 2 0 0) ∧
    takes (.incm .clock true) .clock (time 0 0 6 9 0) (time 0 0 7 0 0) := by decide
-- V3
theorem test_inch : takes (.inch .clock) .clock (time 2 3 3 7 1) (time 0 0 3 7 1) ∧
    takes (.inch .clock) .clock (time 1 9 3 7 1) (time 2 0 3 7 1) ∧
    takes (.inch .timer) .timer (time 9 9 3 7 1) (time 0 0 3 7 1) := by decide
-- V6
theorem test_inch_unreachable : takes (.inch .timer) .timer (time 1 15 0 0 0) (time 1 0 0 0 0) ∧
    takes (.inch .timer) .timer (time 12 9 0 0 0) (time 3 0 0 0 0) ∧
    takes (.inch .clock) .clock (time 2 4 0 0 0) (time 2 5 0 0 0) := by decide
-- V4
theorem test_clrt : nextHas (exec .clrt base) fun t => t == { base with timer := time 0 0 0 0 0 } := by decide
theorem test_clrs : nextHas (exec .clrs base) fun t => t == { base with clock := time 1 3 3 7 0 } := by decide
-- V5
theorem test_tick : takes .tick .clock (time 2 3 5 9 59) (time 0 0 0 0 0) := by decide
theorem test_tick_timer_off :
    (nextHas (exec .tick { base with mode := 1 }) fun t => t == { base with mode := 1, timer := time 0 0 4 2 11 }) ∧
    (nextHas (exec .tick { base with mode := 2 }) fun t => t == { base with mode := 2 }) := by decide
-- V10
theorem test_togl : (nextHas (exec .togl base) fun t => t == { base with mode := 1, timer := time 0 0 0 0 0 }) ∧
    (nextHas (exec .togl { base with mode := 1 }) fun t => t == { base with mode := 2, colonEn := false }) := by decide
theorem test_togl_from_off : (nextHas (exec .togl { base with mode := 2, colonEn := false }) fun t => t == base) ∧
    (nextHas (exec .togl { base with mode := 3 }) fun t => t == { base with mode := 3 }) := by decide
-- V11, R122
theorem test_ldm : nextHas (exec .ldm { base with mode := 2, ph := 9 }) fun t => t == { base with mode := 2, smode := 2, ph := 9 } := by
  decide
theorem test_ldm_step : (nextHas (step { base with mode := 2 }) fun t => t.smode == 2 && t.ph == 24) ∧
    (nextHas (step { base with mode := 1 }) fun t => t.smode == 1 && t.ph == 1) := by decide
-- V12
theorem test_sel : nextHas (exec (.sel .oneMinute) { base with dsel := 0b0001 }) fun t => t == { base with dsel := 0b1001 } := by decide
theorem test_dsl : (nextHas (exec (.dsl .tenMinute) { base with dsel := 0b0100 }) fun t => t == base) ∧
    (nextHas (exec (.dsl .oneHour) { base with dsel := 0b0100 }) fun t => t == { base with dsel := 0b0100 }) := by decide
-- V13
theorem test_wrd : (nextHas (exec (.wrd .tenHour) base) fun t => t.bcd == 1) ∧ (nextHas (exec (.wrd .oneHour) base) fun t => t.bcd == 3) ∧
    (nextHas (exec (.wrd .oneMinute) base) fun t => t.bcd == 7) := by decide
theorem test_wrd_smode : (nextHas (exec (.wrd .tenMinute) { base with smode := 1 }) fun t => t.bcd == 4) ∧
    (nextHas (exec (.wrd .tenMinute) { base with smode := 2, bcd := 9 }) fun t => t.bcd == 9) := by decide
-- V14
theorem test_wrb : nextHas (exec .wrb base) fun t => t == { base with bcd := 15 } := by decide
theorem test_hld : nextHas (exec (.hld .off) base) fun t => t == base := by decide
-- V15
theorem test_adjh : takes .adjh .clock (time 1 3 3 7 59) (time 1 4 3 7 0) ∧ takes .adjh .clock (time 2 3 5 9 59) (time 0 0 5 9 0) := by
  decide
theorem test_adjm : takes .adjm .clock (time 1 3 5 9 20) (time 1 3 0 0 0) ∧ takes .adjm .clock (time 1 3 3 7 59) (time 1 3 3 8 0) := by
  decide
-- V16
theorem test_sws_fires :
    (nextHas (exec (.sws .hourAdjust)
        { base with clock := time 2 3 1 0 45, histHour := 0xF800, ports := { Ports.quiet with swPressed := 1 } })
      fun t => t.histHour == 0xF000 && t.clock == time 0 0 1 0 0) ∧
    (nextHas (exec (.sws .modeSwitch) { base with histMode := 0xF800, ports := { Ports.quiet with swPressed := 4 } })
      fun t => t.histMode == 0xF000 && t.mode == 1 && t.timer == time 0 0 0 0 0) := by decide
theorem test_sws_quiet :
    (nextHas (exec (.sws .hourAdjust) { base with histHour := 0xF800 })
      fun t => t.histHour == 0xF001 && t.clock == base.clock) ∧
    (nextHas (exec (.sws .modeSwitch) { base with histMode := 0xF000, mode := 1, ports := { Ports.quiet with swPressed := 4 } })
      fun t => t.histMode == 0xE000 && t.mode == 1) := by decide
-- V25
theorem test_samp : (nextHas (exec (.samp .hourAdjust true) { base with histHour := 0x7FFF }) fun t => t.histHour == 0xFFFE) ∧
    (nextHas (exec (.samp .minuteAdjust false) base) fun t => t == { base with histMinute := 0xE001 }) := by decide
theorem test_samp_fire : fireResult (.samp .modeSwitch true) { base with histMode := 0x0800 } = true ∧
    fireResult (.samp .modeSwitch true) { base with histMode := 0xF000 } = false := by decide

/-! ### The agents -/

/-- `base` with the ports given. -/
def withPorts (p : Ports) : State := { base with ports := p }

-- R80: SAMP on the port reports its result; a word does not move `ph`
theorem test_command_reports_fire :
    nextHas (step (({ base with histMode := 0xF800, ph := 5 } : State).withFetchWord 8 0x66))
      fun t => t.cmdFire && t.histMode == 0xF000 && t.ph == 5 := by decide
-- R78
theorem test_command_reserved : refusedFor (step (base.withFetchWord 8 0x63)) (.reservedWord 0x63 .operand) := by decide
-- R62: the tick first, a pending command waits
theorem test_tick_first : nextHas (step (withPorts ⟨false, true, 0, true, 0xA0⟩))
    fun t => t.clock == time 1 3 3 8 0 && t.mode == 0 && t.ports.cmdValid && t.ports.cmd == 0xA0 && t.ph == 0 := by decide
-- R190
theorem test_reset_step : nextHas (step { withPorts ⟨true, true, 0, true, 0xA0⟩ with clock := time 0 0 0 0 0, mode := 2, ph := 9 })
    fun t => t.clock == time 1 3 3 7 59 && t.timer == time 0 0 0 0 0 && t.mode == 0 && t.ph == 0 && t.colonEn := by decide
-- R123
theorem test_no_row : refusedFor (step { base with ph := 29 }) (.noSequencerRow 29) := by decide
-- R121, R125: a scanner step of the OFF pass with OFF_DIGIT 3
theorem test_off_window_select : nextHas (step { base with mode := 2, smode := 2, ph := 24 })
    fun t => t.dsel == 0b1000 && t.ph == 25 := by decide
-- R121: the last step of a run pass
theorem test_pass_end : nextHas (step { base with ph := 23 }) fun t => t.ph == 0 && t.clock == base.clock := by decide
-- R55
theorem test_polarity : pressedLevels 0b010 0b110 = 0b011 := by decide
-- R38, as far as it has values
theorem test_reset : State.reset.ph = 0 ∧ State.reset.dsel = 0 ∧ State.reset.mode = 0 ∧ State.reset.colonEn = true := by decide

/-! ### Witnesses: a state and operands that meet each statement's hypotheses together -/

theorem test_witness_EncodeOfDecodeIsTheWord : decode 0x67 = .reserved .operand ∧ decode 0x66 = .op (.samp .modeSwitch true) := by decide
-- every branch of the three increments at its boundary
theorem test_witness_IncsAddsOneSecond : (base.counter .clock).sec.toNat + 1 = 60 ∧ (base.counter .timer).sec.toNat + 1 ≠ 60 := by decide
theorem test_witness_IncmAddsOneMinute : (time 0 0 5 9 0).m1.toNat + 1 = 10 ∧ (time 0 0 5 9 0).m10.toNat + 1 = 6 ∧
    (time 0 0 4 9 0).m10.toNat + 1 ≠ 6 ∧ (time 0 0 4 8 0).m1.toNat + 1 ≠ 10 := by decide
theorem test_witness_InchAddsOneHour : (time 2 3 0 0 0).h10 = 2 ∧ (time 2 3 0 0 0).h1.toNat + 1 = 4 ∧ (time 2 4 0 0 0).h1.toNat + 1 ≠ 4 := by
  decide
theorem test_witness_TickAdvancesTheActiveCounter : base.mode = 0 ∧ ({ base with mode := 1 } : State).mode = 1 ∧
    ({ base with mode := 2 } : State).mode ≠ 0 ∧ ({ base with mode := 2 } : State).mode ≠ 1 := by decide
theorem test_witness_LdmLatchesTheModeAndBranches : base.ph = 0 ∧ base.ports.rst = false ∧ base.ports.tick = false ∧
    base.ports.cmdValid = false := by decide
theorem test_witness_SwsSamplesAndActs : shiftSample 0xF800 true = 0xF000 ∧ shiftSample 0xF800 false ≠ 0xF000 := by decide

/-- The ports with only the command `w`. -/
def commanding (w : OpWord) : Ports := Ports.commanding .quiet w

theorem test_witness_CommandPortStepPerformsTheDecodedWord :
    let s := withPorts (commanding 0x80)
    s.ports.rst = false ∧ s.ports.tick = false ∧ s.ports.cmdValid = true ∧ decode s.ports.cmd = .op .tick := by decide
-- one witness per clause: SAMP, SWS, another word
theorem test_witness_CommandPortReportsFire :
    (decode (withPorts (commanding 0x64)).ports.cmd = .op (.samp .hourAdjust true) ∧ nextHas (step (withPorts (commanding 0x64))) fun _ => true) ∧
    (decode (withPorts (commanding 0x70)).ports.cmd = .op (.sws .hourAdjust) ∧ nextHas (step (withPorts (commanding 0x70))) fun _ => true) ∧
    (decode (withPorts (commanding 0xA0)).ports.cmd = .op .togl ∧ nextHas (step (withPorts (commanding 0xA0))) fun _ => true) := by decide
theorem test_witness_ScannerStepPerformsTheSequencerWord :
    let s := { base with ph := 28 }
    s.ports.rst = false ∧ s.ports.tick = false ∧ s.ports.cmdValid = false ∧
      sequencerWord s.params.offDigit s.ph = some 0xD7 ∧ decode 0xD7 = .op (.dsl .oneMinute) := by decide
theorem test_witness_TickIsPerformedFirst :
    let s := withPorts { commanding 0xA0 with tick := true }
    s.ports.rst = false ∧ s.ports.tick = true ∧ s.ports.cmdValid = true := by decide
theorem test_witness_ResetStepGivesTheResetValues : (withPorts { Ports.quiet with rst := true }).ports.rst = true := by decide
theorem test_witness_ReservedCommandIsRefused :
    let s := withPorts (commanding 0x40)
    s.ports.rst = false ∧ s.ports.tick = false ∧ s.ports.cmdValid = true ∧ decode s.ports.cmd = .reserved .fixedBits ∧
      sequencerWord .oneHour 27 = some 0x72 := by decide
theorem test_witness_PhaseWithoutRowIsRefused :
    let s := { base with ph := 29 }
    s.ports.rst = false ∧ s.ports.tick = false ∧ s.ports.cmdValid = false ∧ 29 ≤ s.ph.toNat := by decide
theorem test_witness_PressedLevelsFollowThePinPolarity : nextHas (step base) fun _ => true := by decide
-- both ways to meet the disjunction: a tick at `ph` 0, a scanner step elsewhere
theorem test_witness_ScanModeChangesOnlyAtTheTopOfAPass :
    (let s := withPorts { Ports.quiet with tick := true }
     s.ports.rst = false ∧ s.ports.cmdValid = false ∧ s.ports.tick = true ∧ nextHas (step s) fun _ => true) ∧
    (let s := { base with ph := 1 }
     s.ports.rst = false ∧ s.ports.cmdValid = false ∧ s.ph ≠ 0 ∧ nextHas (step s) fun _ => true) := by decide
theorem test_witness_OffPassLeavesTheAdjustHistories :
    let s := { base with ph := 27 }
    s.ports.rst = false ∧ s.ports.cmdValid = false ∧ 24 ≤ s.ph.toNat ∧ nextHas (step s) fun _ => true := by decide
theorem test_witness_NoOperationMovesThePhaseOrThePorts : nextHas (exec .togl base) fun _ => true := by decide
-- an operation outside each clause's writers, with a next state
theorem test_witness_ControlRegistersHaveTheirWriters : (Instr.sws .hourAdjust ≠ .togl ∧ Instr.sws .hourAdjust ≠ .sws .modeSwitch) ∧
    Instr.togl ≠ .ldm ∧ (∀ pos, Instr.wrb ≠ .sel pos ∧ Instr.wrb ≠ .dsl pos) ∧ (∀ pos, Instr.ldm ≠ .wrd pos) ∧ Instr.ldm ≠ .wrb :=
  ⟨by decide, by decide, fun pos => by cases pos <;> decide, fun pos => by cases pos <;> decide, by decide⟩
theorem test_witness_CountersAndHistoriesHaveTheirWriters :
    (nextHas (exec .adjh base) fun t => t.timer == base.timer) ∧ (nextHas (exec (.incs .timer) base) fun t => t.clock == base.clock) ∧
    (nextHas (exec (.sws .hourAdjust) base) fun t => t.histMode == base.histMode) := by decide
theorem test_witness_IncsCountsSecondsModuloTheWrap : (time 2 3 5 9 59).InRange .clock ∧ (time 9 9 5 9 59).InRange .timer := by decide
theorem test_witness_IncmCountsMinutesModuloSixty : (base.counter .clock).InRange .clock ∧ (time 2 3 5 9 0).minutes = 59 := by decide
theorem test_witness_InchCountsHoursModuloTheWrap : (time 2 3 0 0 0).InRange .clock ∧ (time 9 9 0 0 0).InRange .timer := by decide
theorem test_witness_EveryOperationKeepsTheCountersInRange : base.clock.InRange .clock ∧ base.timer.InRange .timer ∧
    nextHas (exec (.incs .clock) base) fun _ => true := by decide
theorem test_witness_SixtySecondsMakeOneMinute : (base.counter .timer).InRange .timer ∧ 60 - (base.counter .timer).sec.toNat = 50 := by
  decide
theorem test_witness_SixtyMinutesMakeOneHour : (({ base with timer := time 7 7 0 0 3 } : State).counter .timer).minutes = 0 := by decide
theorem test_witness_ThreeTogglesAreACycle : base.mode = 0 := by decide
theorem test_witness_EveryStepKeepsTheColonWithTheMode : base.ColonFollowsMode ∧ nextHas (step base) fun _ => true := by decide
theorem test_witness_DebouncerFiresOnTheTwelfthPressedSample : base.hist .modeSwitch = 0 ∧
    (([true, false] ++ List.replicate 12 true).reverse.take 13 = List.replicate 12 true ++ [false]) := by decide
theorem test_witness_EveryBlockStepKeepsTheScanInvariant : base.ScanInv ∧ base.ports.ofBlock :=
  ⟨⟨⟨by decide, by decide, by decide, by decide, by decide, by decide, fun i => by cases i <;> decide⟩,
    by decide, by decide, by decide, by decide⟩, by decide⟩
theorem test_witness_EveryBlockRunIsWellFormed :
    ∀ x ∈ [Ports.quiet, { Ports.quiet with tick := true, swPressed := 7 }, { Ports.quiet with rst := true }], x.ofBlock := by decide
theorem test_witness_TimerBeforeItsFirstUseIsNotObserved : base.mode ≠ 1 ∧ base.smode ≠ 1 ∧ (∀ x ∈ [Ports.quiet], x.ofBlock) ∧
    (observedWith [Ports.quiet] base).length = 1 := by decide
theorem test_witness_RunPassShowsTheFourDigits : base.ph = 0 ∧ base.dsel = 0 ∧ base.mode = 0 ∧
    ({ base with mode := 1 } : State).mode = 1 := by decide
theorem test_witness_OffPassShowsThePlaceholder : base.ph = 0 ∧ base.dsel = 0 ∧ ({ base with mode := 2 } : State).mode = 2 := by decide
theorem test_witness_EveryBlockStepKeepsTheTimerUnobserved : base.mode ≠ 1 ∧ base.smode ≠ 1 ∧ base.ph.toNat ≤ 28 ∧
    base.ports.ofBlock := by decide

end Sys2Proof.Tests
end

section
/-! SUPPORT. The proofs of the TimeKeeper's statements (spec 40): INCS, INCM, INCH, CLRT, CLRS and TICK. Each follows the
cases of the counter operation in Laws/Ops; the lemmas before them translate between the model's fields and the
statements' numbers. -/

namespace Sys2Proof.Machine

/-! What the operations answer, as a counter written back; an operation that another performs starts from a state whose
counter has just been written. -/

theorem exec_incs (c : CounterId) (s : State) : exec (.incs c) s = .next (s.setCounter c (incSecond c (s.counter c))) :=
  exec_eq_after (.incs c) s

theorem exec_incm (c : CounterId) (r : Bool) (s : State) :
    exec (.incm c r) s = .next (s.setCounter c (incMinute c r (s.counter c))) :=
  exec_eq_after (.incm c r) s

theorem exec_inch (c : CounterId) (s : State) : exec (.inch c) s = .next (s.setCounter c (incHour c (s.counter c))) :=
  exec_eq_after (.inch c) s

theorem exec_tick (s : State) : exec .tick s = .next s.takeTick := exec_eq_after .tick s

theorem exec_incm_setCounter (c : CounterId) (r : Bool) (s : State) (v : TimeCounter) :
    exec (.incm c r) (s.setCounter c v) = .next (s.setCounter c (incMinute c r v)) := by
  rw [exec_incm, counter_setCounter, setCounter_setCounter]

theorem exec_inch_setCounter (c : CounterId) (s : State) (v : TimeCounter) :
    exec (.inch c) (s.setCounter c v) = .next (s.setCounter c (incHour c v)) := by
  rw [exec_inch, counter_setCounter, setCounter_setCounter]

/-! The words with a counter operand (40 R90 to R92). -/

theorem decode_incs (c : CounterId) : decode (.ofNat 8 (0x10 + c.num)) = .op (.incs c) := by cases c <;> rfl

theorem decode_incm (c : CounterId) (r : Bool) : decode (.ofNat 8 (0x20 + 2 * r.toNat + c.num)) = .op (.incm c r) := by
  cases c <;> cases r <;> rfl

theorem decode_inch (c : CounterId) : decode (.ofNat 8 (0x30 + c.num)) = .op (.inch c) := by cases c <;> rfl

/-- Storing a sum keeps it modulo 2 to the field's width (00 R11), so reducing the sum before changes nothing. -/
theorem stored_plusOne {n : Nat} (v : BitVec n) : stored n (plusOne v) = stored n ((v.toNat + 1) % 2 ^ n) := by
  apply BitVec.eq_of_toNat_eq
  simp

/-- A stored number that fits reads as another that fits exactly when they are the same number. -/
theorem stored_eq_stored_iff {n a b : Nat} (ha : a < 2 ^ n) (hb : b < 2 ^ n) : stored n a = stored n b ↔ a = b := by
  rw [← BitVec.toNat_inj, toNat_stored, toNat_stored, Nat.mod_eq_of_lt ha, Nat.mod_eq_of_lt hb]

/-! ### INCS and INCM -/

/-- Settles O6, by the two cases of INCS. -/
theorem incsAddsOneSecond : Obligations.IncsAddsOneSecond := by
  intro c s
  refine ⟨decode_incs c, ?_⟩
  have hexec := exec_incs c s
  rcases incSecond_cases c (s.counter c) with ⟨hcarry, hinc⟩ | ⟨hcarry, hinc⟩ <;> rw [hinc] at hexec
  · have hsec := (secondCarry_false_iff _).mp hcarry
    rw [if_neg (by omega), hexec, stored_plusOne]
    rfl
  · have hsec := (secondCarry_iff _).mp hcarry
    rw [if_pos (by omega)]
    exact ⟨_, exec_incm_setCounter c true s _, hexec⟩

/-- Settles O7, by the four cases of INCM. -/
theorem incmAddsOneMinute : Obligations.IncmAddsOneMinute := by
  intro c r s
  refine ⟨decode_incm c r, ?_⟩
  intro t
  have hexec : exec (.incm c r) s = .next (s.setCounter c (incMinute c r t)) := exec_incm c r s
  rcases incMinute_cases c r t with
    ⟨h1, hinc⟩ | ⟨h1, h10, hinc⟩ | ⟨h1, h10, hr, hinc⟩ | ⟨h1, h10, hr, hinc⟩ <;> rw [hinc] at hexec
  · have hm1 := (digitCarry_false_iff _).mp h1
    rw [if_neg (by omega), hexec, stored_plusOne]
    rfl
  · have hm1 := (digitCarry_iff _).mp h1
    have hm10 := (tenMinuteCarry_false_iff _).mp h10
    rw [if_pos (by omega), if_neg (by omega), hexec, stored_plusOne]
    rfl
  · have hm1 := (digitCarry_iff _).mp h1
    have hm10 := (tenMinuteCarry_iff _).mp h10
    rw [if_pos (by omega), if_pos (by omega), if_pos hr]
    exact ⟨_, exec_inch_setCounter c s _, hexec⟩
  · have hm1 := (digitCarry_iff _).mp h1
    have hm10 := (tenMinuteCarry_iff _).mp h10
    rw [if_pos (by omega), if_pos (by omega), if_neg (by simp [hr]), hexec]

/-! ### INCH -/

/-- The number INCH writes to `h1` before the 24 wrap (40 R92). -/
def nextOneHour (t : TimeCounter) : Nat := if t.h1.toNat + 1 = 10 then 0 else (t.h1.toNat + 1) % 16

/-- The number INCH writes to `h10` before the 24 wrap (40 R92). -/
def nextTenHour (t : TimeCounter) : Nat := if t.h1.toNat + 1 = 10 then (t.h10.toNat + 1) % 10 else t.h10.toNat

theorem nextOneHour_lt (t : TimeCounter) : nextOneHour t < 2 ^ 4 := by
  unfold nextOneHour
  split <;> omega

theorem nextTenHour_lt (t : TimeCounter) : nextTenHour t < 2 ^ 4 := by
  unfold nextTenHour
  split <;> omega

/-- The hours before the 24 wrap, by their numbers. -/
theorem hourPlusOne_eq (t : TimeCounter) :
    hourPlusOne t = { t with h10 := stored 4 (nextTenHour t), h1 := stored 4 (nextOneHour t) } := by
  by_cases h : t.h1.toNat + 1 = 10
  · have hcarry : digitCarry t.h1 = true := (digitCarry_iff _).mpr (by omega)
    simp [hourPlusOne, nextTenHour, nextOneHour, hcarry, h]
  · have hcarry : digitCarry t.h1 = false := (digitCarry_false_iff _).mpr (by omega)
    have hstored : stored 4 (plusOne t.h1) = stored 4 ((t.h1.toNat + 1) % 16) := stored_plusOne t.h1
    simp [hourPlusOne, nextTenHour, nextOneHour, hcarry, h, hstored]

/-- The 24 wrap test, which reads the stored digits, on their numbers. -/
theorem wraps24_hourPlusOne_iff (c : CounterId) (t : TimeCounter) :
    wraps24 c (hourPlusOne t) = true ↔ c = .clock ∧ nextTenHour t = 2 ∧ nextOneHour t = 4 := by
  rw [wraps24_iff, hourPlusOne_eq]
  exact and_congr_right' (and_congr (stored_eq_stored_iff (nextTenHour_lt t) (by decide))
    (stored_eq_stored_iff (nextOneHour_lt t) (by decide)))

theorem incHour_of_wraps (c : CounterId) (t : TimeCounter) (h : wraps24 c (hourPlusOne t) = true) :
    incHour c t = { t with h10 := 0, h1 := 0 } := by
  rcases incHour_cases c t with ⟨-, hinc⟩ | ⟨hno, -⟩ | ⟨hno, -⟩
  · exact hinc
  · exact absurd h (by simp [hno])
  · exact absurd h (by simp [hno])

theorem incHour_of_not_wraps (c : CounterId) (t : TimeCounter) (h : ¬ wraps24 c (hourPlusOne t) = true) :
    incHour c t = hourPlusOne t := if_neg h

/-- Settles O8: the wrap test decides between hours 00 and the hours plus one. -/
theorem inchAddsOneHour : Obligations.InchAddsOneHour := by
  intro c s
  refine ⟨decode_inch c, ?_⟩
  intro t h1 h10
  have hexec : exec (.inch c) s = .next (s.setCounter c (incHour c t)) := exec_inch c s
  have hwrap : wraps24 c (hourPlusOne t) = true ↔ c = .clock ∧ h10 = 2 ∧ h1 = 4 := wraps24_hourPlusOne_iff c t
  split
  next h => rw [hexec, incHour_of_wraps c t (hwrap.mpr h)]
  next h => rw [hexec, incHour_of_not_wraps c t (mt hwrap.mp h), hourPlusOne_eq]; rfl

/-! ### CLRT, CLRS and TICK -/

/-- Settles O9. -/
theorem clrtZeroesTheTimer : Obligations.ClrtZeroesTheTimer := ⟨rfl, exec_eq_after .clrt⟩

/-- Settles O10. -/
theorem clrsClearsTheClocksSeconds : Obligations.ClrsClearsTheClocksSeconds := ⟨rfl, exec_eq_after .clrs⟩

/-- TICK does what INCS does on the counter that `mode` selects. -/
theorem exec_tick_of_selected {s : State} {c : CounterId} (h : counterOfMode s.mode = some c) :
    exec .tick s = exec (.incs c) s := by
  rw [exec_tick, exec_incs]
  rcases takeTick_cases s with ⟨d, hd, htick⟩ | ⟨hnone, -⟩
  · obtain rfl : d = c := Option.some.inj (hd.symm.trans h)
    rw [htick]
  · simp [h] at hnone

/-- TICK changes nothing when `mode` selects no counter. -/
theorem exec_tick_of_none {s : State} (h : counterOfMode s.mode = none) : exec .tick s = .next s := by
  rw [exec_tick]
  rcases takeTick_cases s with ⟨d, hd, -⟩ | ⟨-, htick⟩
  · simp [h] at hd
  · rw [htick]

/-- Settles O11, by the counter that `mode` selects. -/
theorem tickAdvancesTheActiveCounter : Obligations.TickAdvancesTheActiveCounter := by
  refine ⟨rfl, fun s => ?_⟩
  rcases counterOfMode_cases s.mode with ⟨hm, hc⟩ | ⟨hm, hc⟩ | ⟨h0, h1, hc⟩
  · rw [if_pos hm, exec_tick_of_selected hc]
    exact ⟨_, exec_incs .clock s, exec_incs .clock s⟩
  · rw [if_neg (by simp [hm]), if_pos hm, exec_tick_of_selected hc]
    exact ⟨_, exec_incs .timer s, exec_incs .timer s⟩
  · rw [if_neg h0, if_neg h1, exec_tick_of_none hc]

end Sys2Proof.Machine
end

section
/-! SUPPORT. The proof of the ModeController's statement (spec 41): TOGL, by the places of the mode cycle in Laws/Ops. -/

namespace Sys2Proof.Machine

theorem exec_togl (s : State) : exec .togl s = .next s.toggleMode := exec_eq_after .togl s

/-- Settles O12, by the three transitions of TOGL and `mode` 3. -/
theorem toglAdvancesTheModeCycle : Obligations.ToglAdvancesTheModeCycle := by
  refine ⟨rfl, fun s => ?_⟩
  rw [exec_togl]
  rcases toggleMode_cases s with ⟨hm, ht⟩ | ⟨hm, ht⟩ | ⟨hm, ht⟩ | ⟨hm, ht⟩ <;> rw [ht]
  · rw [if_pos hm]
    rfl
  · rw [if_neg (by simp [hm]), if_pos hm]
  · rw [if_neg (by simp [hm]), if_neg (by simp [hm]), if_pos hm]
  · rw [if_neg (by simp [hm]), if_neg (by simp [hm]), if_neg (by simp [hm])]

end Sys2Proof.Machine
end

section
/-! SUPPORT. The proofs of the DisplayScanner's statements (spec 42): the sequencer table, LDM, SEL, DSL, WRD, WRB, HLD, SWS,
ADJH and ADJM. The first parts say what the words decode to, what the table holds and what a scanner step is; the
operations follow the cases of Laws/Ops. -/

namespace Sys2Proof.Machine

/-! ### The words with an operand of the scanner (42 R124, R125, R127, R128, R131) -/

theorem decode_sel (pos : DigitPos) : decode (.ofNat 8 (0xD0 + pos.num)) = .op (.sel pos) := by cases pos <;> rfl

theorem decode_dsl (pos : DigitPos) : decode (.ofNat 8 (0xD4 + pos.num)) = .op (.dsl pos) := by cases pos <;> rfl

theorem decode_wrd (pos : DigitPos) : decode (.ofNat 8 (0xE0 + pos.num)) = .op (.wrd pos) := by cases pos <;> rfl

theorem decode_hld (k : HoldKind) : decode (.ofNat 8 (0xF0 + k.num)) = .op (.hld k) := by cases k <;> rfl

theorem decode_sws (i : SwitchId) : decode (.ofNat 8 (0x70 + i.num)) = .op (.sws i) := by cases i <;> rfl

/-! ### The sequencer table -/

@[simp] theorem length_sequencerWords (d : DigitPos) : (sequencerWords d).length = 29 := rfl

/-- The table ends at `ph` 28 (42 R123). -/
theorem sequencerWord_eq_none_iff (d : DigitPos) (ph : Phase) : sequencerWord d ph = none ↔ 29 ≤ ph.toNat := by
  simp [sequencerWord]

/-- At the top of a pass the next phase follows `smode`. -/
theorem nextPhase_zero (m : ModeBits) : nextPhase 0 m = if m = modeOff then 24 else 1 := if_pos rfl

/-- Past the top of a pass the next phase does not depend on `smode`. -/
theorem nextPhase_of_ne_zero {ph : Phase} (h : ph ≠ 0) (m : ModeBits) :
    nextPhase ph m = if ph = 23 ∨ ph = 28 then 0 else ph + 1 := if_neg h

/-- The next phase asks only whether `smode` is OFF. -/
theorem nextPhase_of_ne_off {m : ModeBits} (hm : m ≠ modeOff) (ph : Phase) : nextPhase ph m = nextPhase ph modeClock := by
  by_cases h : ph = 0
  · rw [h, nextPhase_zero, if_neg hm]
    rfl
  · rw [nextPhase_of_ne_zero h, nextPhase_of_ne_zero h]

/-- Settles O27: the table has a row up to 28, and is read off for `smode` OFF and for any other. -/
theorem theSequencerTable : Obligations.TheSequencerTable := by
  intro d m
  refine ⟨?_, fun ph => (sequencerWord_eq_none_iff d ph).mpr⟩
  by_cases hm : m = modeOff
  · subst hm
    cases d <;> rfl
  · simp only [nextPhase_of_ne_off hm, if_neg hm]
    cases d <;> rfl

/-- Where the table samples each switch: 0 and 1 in one window of the run pass, 2 in one window of each pass. -/
theorem sequencerWord_eq_sws_iff (d : DigitPos) (ph : Phase) :
    (sequencerWord d ph = some 0x70 ↔ ph = 4) ∧ (sequencerWord d ph = some 0x71 ↔ ph = 10) ∧
    (sequencerWord d ph = some 0x72 ↔ ph = 16 ∨ ph = 27) := by
  revert ph
  cases d <;> decide

/-! ### LDM, and the scanner step that performs it -/

/-- A step with nothing else due performs the table's operation and moves `ph` on (42 R120). -/
theorem step_of_scanner {s : State} {w : OpWord} {i : Instr} (hrst : s.ports.rst = false) (htick : s.ports.tick = false)
    (hcmd : s.ports.cmdValid = false) (hw : sequencerWord s.params.offDigit s.ph = some w) (hi : decode w = .op i) :
    step s = .next ({ after i s with ph := nextPhase s.ph (after i s).smode }.endStep (Config.freeFire s.draws) false) := by
  simp [step, hrst, htick, hcmd, scannerStep, hw, hi, perform_eq]

/-- Settles O13: the scanner step at `ph` 0 is LDM, and the branch reads the `smode` that LDM wrote. -/
theorem ldmLatchesTheModeAndBranches : Obligations.LdmLatchesTheModeAndBranches := by
  refine ⟨rfl, exec_eq_after .ldm, ?_, ?_⟩
  · intro s hph hrst htick hcmd
    have hw : sequencerWord s.params.offDigit s.ph = some 0xC0 := by rw [hph]; rfl
    refine ⟨_, step_of_scanner hrst htick hcmd hw (i := .ldm) rfl, rfl, rfl, ?_⟩
    rw [endStep_ph, hph]
    exact nextPhase_zero s.mode
  · rintro s i (rfl | rfl)
    · exact ⟨_, exec_tick s, takeTick_smode s, takeTick_ph s⟩
    · exact ⟨_, exec_togl s, toggleMode_smode s, toggleMode_ph s⟩

/-! ### SEL and DSL -/

/-- The select line of a position is the one bit with its number (10 R32). -/
theorem getLsbD_selectBit (pos : DigitPos) (b : Fin 4) : (selectBit pos).getLsbD b = decide (b.val = pos.num) := by
  revert b
  cases pos <;> decide

/-- Settles O14. -/
theorem selSetsOneSelectLine : Obligations.SelSetsOneSelectLine := by
  intro pos s
  refine ⟨decode_sel pos, _, exec_eq_after (.sel pos) s, fun b => ?_⟩
  rw [BitVec.getLsbD_or, getLsbD_selectBit, Bool.or_comm]

/-- Settles O15. -/
theorem dslClearsOneSelectLine : Obligations.DslClearsOneSelectLine := by
  intro pos s
  refine ⟨decode_dsl pos, _, exec_eq_after (.dsl pos) s, fun b => ?_⟩
  rw [BitVec.getLsbD_and, BitVec.getLsbD_not, getLsbD_selectBit, decide_eq_true b.isLt, Bool.true_and, Bool.and_comm]

/-! ### WRD, WRB and HLD -/

/-- WRD shows a digit of the counter that `smode` selects. -/
theorem exec_wrd_of_selected {s : State} {c : CounterId} (h : counterOfMode s.smode = some c) (pos : DigitPos) :
    exec (.wrd pos) s = .next { s with bcd := (s.counter c).digit pos } := by
  rw [exec_eq_after (.wrd pos)]
  simp [after, State.showDigit, h, State.writeBcd]

/-- WRD changes nothing when `smode` selects no counter. -/
theorem exec_wrd_of_none {s : State} (h : counterOfMode s.smode = none) (pos : DigitPos) :
    exec (.wrd pos) s = .next s := by
  rw [exec_eq_after (.wrd pos)]
  simp [after, State.showDigit, h]

/-- Settles O16, by the counter that `smode` selects. -/
theorem wrdWritesTheDigitOfTheShownCounter : Obligations.WrdWritesTheDigitOfTheShownCounter := by
  intro pos s
  refine ⟨decode_wrd pos, ?_⟩
  intro shown
  have hshown : ∀ t : TimeCounter, t.digit pos = shown t := fun t => by cases pos <;> rfl
  rcases counterOfMode_cases s.smode with ⟨hm, hc⟩ | ⟨hm, hc⟩ | ⟨h0, h1, hc⟩
  · rw [if_pos hm, exec_wrd_of_selected hc, hshown, counter_clock]
  · rw [if_neg (by simp [hm]), if_pos hm, exec_wrd_of_selected hc, hshown, counter_timer]
  · rw [if_neg h0, if_neg h1, exec_wrd_of_none hc]

/-- Settles O17. -/
theorem wrbWritesThePlaceholder : Obligations.WrbWritesThePlaceholder := ⟨rfl, exec_eq_after .wrb⟩

/-- Settles O18. -/
theorem hldChangesNothing : Obligations.HldChangesNothing := fun k s => ⟨decode_hld k, exec_eq_after (.hld k) s⟩

/-! ### ADJH, ADJM and SWS -/

theorem exec_clrs (s : State) : exec .clrs s = .next s.clearClockSeconds := exec_eq_after .clrs s

/-- Settles O20. -/
theorem adjhIsClrsThenInch : Obligations.AdjhIsClrsThenInch :=
  ⟨rfl, fun s => ⟨_, _, exec_clrs s, exec_inch .clock _, exec_eq_after .adjh s⟩⟩

/-- Settles O21. -/
theorem adjmIsClrsThenIncm : Obligations.AdjmIsClrsThenIncm :=
  ⟨rfl, fun s => ⟨_, _, exec_clrs s, exec_incm .clock false _, exec_eq_after .adjm s⟩⟩

/-- Settles O19, by whether the sample fires. -/
theorem swsSamplesAndActs : Obligations.SwsSamplesAndActs := by
  refine ⟨fun i s => ⟨decode_sws i, _, exec_eq_after (.samp i (s.swPressedAt i)) s, ?_⟩, sequencerWord_eq_sws_iff⟩
  have hexec : exec (.sws i) s = .next (s.sampleSwitch i) := exec_eq_after (.sws i) s
  have hhist : (after (.samp i (s.swPressedAt i)) s).hist i = shiftSample (s.hist i) (s.swPressedAt i) := sample_hist ..
  rw [hhist]
  rcases sampleSwitch_cases s i with ⟨hfire, hsws⟩ | ⟨hfire, hsws⟩ <;> rw [hsws] at hexec
  · rw [if_pos ((fires_iff _).mp hfire)]
    refine ⟨_, hexec, ?_⟩
    cases i <;> rfl
  · rw [if_neg (fun h => by simp [(fires_iff _).mpr h] at hfire)]
    exact hexec

end Sys2Proof.Machine
end

section
/-! SUPPORT. The proof of the SwitchDebouncer's statement (spec 43): SAMP, by the new history as a number. -/

namespace Sys2Proof.Machine

theorem decode_samp (i : SwitchId) (p : Bool) : decode (.ofNat 8 (0x60 + 4 * p.toNat + i.num)) = .op (.samp i p) := by
  cases i <;> cases p <;> rfl

/-- Moving a history up by one place doubles its number, less the bit that leaves it (43 R150). -/
theorem hist_shiftLeft_one (h : Hist) : h <<< 1 = .ofNat 16 (h.toNat * 2 % 65536) := by
  apply BitVec.eq_of_toNat_eq
  rw [BitVec.toNat_shiftLeft, BitVec.toNat_ofNat, Nat.shiftLeft_eq, pow_one]
  exact (Nat.mod_mod _ _).symm

/-- The bit a sample shifts in: 0 if pressed, 1 if not (43 R151). -/
theorem sampleBit_eq (p : Bool) : (if p then 0 else 1 : Hist) = .ofNat 16 (1 - p.toNat) := by cases p <;> rfl

/-- The new history of SAMP, from the number of the old one. -/
theorem shiftSample_eq (h : Hist) (p : Bool) :
    shiftSample h p = .ofNat 16 (h.toNat * 2 % 65536) ||| .ofNat 16 (1 - p.toNat) ||| 0xE000 := by
  rw [shiftSample, hist_shiftLeft_one, sampleBit_eq, forceMask]

theorem exec_samp (i : SwitchId) (p : Bool) (s : State) :
    exec (.samp i p) s = .next (s.setHist i (shiftSample (s.hist i) p)) := exec_eq_after (.samp i p) s

theorem fireResult_samp (i : SwitchId) (p : Bool) (s : State) :
    fireResult (.samp i p) s = decide (shiftSample (s.hist i) p = 0xF000) :=
  Bool.eq_iff_iff.mpr ((fires_iff _).trans decide_eq_true_iff.symm)

/-- Settles O22: the state and the result of SAMP are both read off the new history. -/
theorem sampShiftsOneSample : Obligations.SampShiftsOneSample := by
  intro i p s
  refine ⟨decode_samp i p, ?_⟩
  rw [← shiftSample_eq]
  exact ⟨exec_samp i p s, fireResult_samp i p s⟩

end Sys2Proof.Machine
end

section
/-! SUPPORT. The proof of the exceptions' statement (spec 60): no operation fails, and a step that stops does so for one of
the two inputs of R166. Of the outcomes that `step_cases` lists, a reserved word from the sequencer is the one to exclude. -/

namespace Sys2Proof.Machine

theorem decode_eq_op_of_selected {w : OpWord} {i : Instr} (h : selected w = some i) : decode w = .op i := by
  simp [decode, h]

/-- Every word of the sequencer table selects a row of the opcode table (30 R74, 42 R121). -/
theorem all_sequencerWords_selected (d : DigitPos) : ∀ w ∈ sequencerWords d, (selected w).isSome = true := by
  cases d <;> decide

/-- The sequencer holds no reserved word (30 R78, 42 R121). -/
theorem exists_op_of_sequencerWord {d : DigitPos} {ph : Phase} {w : OpWord} (hw : sequencerWord d ph = some w) :
    ∃ i, decode w = .op i := by
  have hmem : w ∈ sequencerWords d := List.mem_of_getElem? hw
  obtain ⟨i, hi⟩ := Option.isSome_iff_exists.mp (all_sequencerWords_selected d w hmem)
  exact ⟨i, decode_eq_op_of_selected hi⟩

/-- Settles O34, by the outcomes of a step: only a command and a phase past the table's end can stop it. -/
theorem noOperationFails : Obligations.NoOperationFails := by
  refine ⟨fun i s => ⟨after i s, exec_eq_after i s⟩, fun s => ?_⟩
  rcases step_cases s with ⟨-, hstep⟩ | ⟨-, -, hstep⟩ | ⟨hrst, htick, hcmd, hcommand⟩ | ⟨hrst, htick, hcmd, hscanner⟩
  · exact .inl ⟨_, hstep⟩
  · exact .inl ⟨_, hstep⟩
  · rcases hcommand with ⟨i, -, hstep⟩ | hreserved
    · exact .inl ⟨_, hstep⟩
    · exact .inr (.inl ⟨hrst, htick, hcmd, hreserved⟩)
  · rcases hscanner with ⟨w, hw, ⟨i, -, hstep⟩ | ⟨why, hwhy, -⟩⟩ | ⟨hnone, hstep⟩
    · exact .inl ⟨_, hstep⟩
    · obtain ⟨i, hi⟩ := exists_op_of_sequencerWord hw
      simp [hi] at hwhy
    · exact .inr (.inr ⟨hrst, htick, hcmd, (sequencerWord_eq_none_iff _ _).mp hnone, hstep⟩)

end Sys2Proof.Machine
end

section
/-! SUPPORT. The proofs of the encoding statements (spec 30): decoder and encoder agree, the defined and the reserved words,
and the rows of the opcode table exclude each other. -/

namespace Sys2Proof.Machine

/-! ### Decoder and encoder -/

/-- Settles O1, by the operations; an operand has the few values of 30 R72. -/
theorem decodeOfEncodeIsTheOperation : Obligations.DecodeOfEncodeIsTheOperation := by
  intro i
  cases i with
  | incs c => exact decode_incs c
  | incm c r => exact decode_incm c r
  | inch c => exact decode_inch c
  | samp j p => exact decode_samp j p
  | sws j => exact decode_sws j
  | sel pos => exact decode_sel pos
  | dsl pos => exact decode_dsl pos
  | wrd pos => exact decode_wrd pos
  | hld k => exact decode_hld k
  | clrt | clrs | tick | adjh | adjm | togl | ldm | wrb => rfl

theorem decode_eq_op_iff (w : OpWord) (i : Instr) : decode w = .op i ↔ selected w = some i := by
  unfold decode
  cases selected w <;> simp

theorem decode_eq_reserved_iff (w : OpWord) (why : Reserved) :
    decode w = .reserved why ↔ selected w = none ∧ reservedWhy w = why := by
  unfold decode
  cases selected w <;> simp

/-- A row builds the operation whose own word selects the row: read off the 256 words. -/
theorem encode_of_selected : ∀ w : OpWord, ∀ i ∈ selected w, encode i = w := by decide

/-- The word of every operation is one of the 40 of 30 R75. -/
theorem wellFormed_encode (i : Instr) : (encode i).wellFormed = true := by
  cases i with
  | incs c => exact Laws.EncodedWordFormed.incs c
  | incm c r => exact Laws.EncodedWordFormed.incm c r
  | inch c => exact Laws.EncodedWordFormed.inch c
  | samp j p => exact Laws.EncodedWordFormed.samp j p
  | sws j => exact Laws.EncodedWordFormed.sws j
  | sel pos => exact Laws.EncodedWordFormed.sel pos
  | dsl pos => exact Laws.EncodedWordFormed.dsl pos
  | wrd pos => exact Laws.EncodedWordFormed.wrd pos
  | hld k => exact Laws.EncodedWordFormed.hld k
  | clrt | clrs | tick | adjh | adjm | togl | ldm | wrb => rfl

/-- The encoder inverts the decoder on the words that decode. -/
theorem encode_eq_of_decode {w : OpWord} {i : Instr} (h : decode w = .op i) : encode i = w :=
  encode_of_selected w i ((decode_eq_op_iff w i).mp h)

/-- Settles O2. -/
theorem encodeOfDecodeIsTheWord : Obligations.EncodeOfDecodeIsTheWord := by
  intro w i h
  have hw : encode i = w := encode_eq_of_decode h
  exact ⟨hw, hw ▸ wellFormed_encode i⟩

/-! ### The rows of the opcode table -/

/-- Two rows fix different values of some bit that both of them fix. -/
def RowsConflict (r q : Row) : Prop := r.mask &&& q.mask &&& (r.pattern ^^^ q.pattern) ≠ 0

theorem pairwise_conflict_opcodeRows : opcodeRows.Pairwise RowsConflict := by
  unfold RowsConflict
  decide

/-- A word that selects two rows has the values of both patterns on the bits that both masks fix, so they do not
conflict. -/
theorem not_rowsConflict_of_selects {r q : Row} {w : OpWord} (hr : r.selects w = true) (hq : q.selects w = true) :
    ¬ RowsConflict r q := by
  simp only [Row.selects, Row.covers, Bool.and_eq_true, beq_iff_eq] at hr hq
  obtain ⟨hr, -⟩ := hr
  obtain ⟨hq, -⟩ := hq
  refine not_not.mpr ?_
  rw [← hr, ← hq]
  ext k hk
  rw [BitVec.getElem_and, BitVec.getElem_and, BitVec.getElem_xor, BitVec.getElem_and, BitVec.getElem_and]
  cases w[k] <;> cases r.mask[k] <;> simp

theorem length_selecting_rows_le_one (w : OpWord) : (opcodeRows.filter (·.selects w)).length ≤ 1 := by
  have hpair : (opcodeRows.filter (·.selects w)).Pairwise RowsConflict := pairwise_conflict_opcodeRows.filter _
  have hsel : ∀ r ∈ opcodeRows.filter (·.selects w), r.selects w = true := fun r hr => (List.mem_filter.mp hr).2
  cases hl : opcodeRows.filter (·.selects w) with
  | nil => simp
  | cons r rest =>
    cases rest with
    | nil => simp
    | cons q rest =>
      rw [hl] at hpair hsel
      exact absurd (List.rel_of_pairwise_cons hpair (by simp))
        (not_rowsConflict_of_selects (hsel r (by simp)) (hsel q (by simp)))

/-- A list of words and operations is right when each of its pairs is. -/
theorem decode_of_mem {l : List (OpWord × Instr)} (hl : ∀ p ∈ l, decode p.1 = .op p.2) {w : OpWord} {i : Instr}
    (h : (w, i) ∈ l) : decode w = .op i := hl (w, i) h

/-- Settles O3: a listed pair is an operation with its word, and every operation is listed. -/
theorem theFortyDefinedWords : Obligations.TheFortyDefinedWords := by
  refine ⟨fun w i => ⟨fun h => ?_, fun h => ?_⟩, length_selecting_rows_le_one⟩
  · rw [← encode_eq_of_decode h]
    cases i with
    | incs c => cases c <;> decide
    | incm c r => cases c <;> cases r <;> decide
    | inch c => cases c <;> decide
    | samp j p => cases j <;> cases p <;> decide
    | sws j => cases j <;> decide
    | sel pos => cases pos <;> decide
    | dsl pos => cases pos <;> decide
    | wrd pos => cases pos <;> decide
    | hld k => cases k <;> decide
    | clrt | clrs | tick | adjh | adjm | togl | ldm | wrb => decide
  · exact decode_of_mem (by decide) h

theorem exists_reserved_iff (w : OpWord) : (∃ why, decode w = .reserved why) ↔ selected w = none := by
  simp [decode_eq_reserved_iff]

/-- Settles O4, each part read off the 256 words. -/
theorem theReservedWords : Obligations.TheReservedWords := by
  refine ⟨fun w => (exists_reserved_iff w).trans ?_, ?_, ?_⟩
  · revert w
    decide
  · decide
  · decide

/-- Settles O5. -/
theorem wordsFromThePatternsDecode : Obligations.WordsFromThePatternsDecode := by
  unfold Obligations.WordsFromThePatternsDecode
  decide

end Sys2Proof.Machine
end

section
/-! SUPPORT. The proofs of the statements about the counters as numbers (spec 40 R96 to R100): the three increments on the
numbers a counter stands for, the ranges every operation keeps, and the laws of sixty seconds and sixty minutes. -/

namespace Sys2Proof.Machine

/-! ### INCH as a number -/

/-- Before the 24 wrap the hours are the next of 100, in two digits. -/
theorem hourPlusOne_hours {c : CounterId} {t : TimeCounter} (h : t.InRange c) :
    (hourPlusOne t).h1.toNat < 10 ∧ (hourPlusOne t).h10.toNat < 10 ∧ (hourPlusOne t).hours = (t.hours + 1) % 100 := by
  obtain ⟨-, -, -, hh1, hh10, -⟩ := h
  rw [hourPlusOne_eq]
  simp only [TimeCounter.hours, toNat_stored, nextTenHour, nextOneHour]
  split <;> omega

/-- The 24 wrap happens on `clock` after hour 23. -/
theorem wraps24_iff_hours {c : CounterId} {t : TimeCounter} (h : t.InRange c) :
    wraps24 c (hourPlusOne t) = true ↔ c = .clock ∧ t.hours + 1 = 24 := by
  obtain ⟨hn1, hn10, hnext⟩ := hourPlusOne_hours h
  obtain ⟨-, -, -, hh1, hh10, -⟩ := h
  rw [wraps24_iff, ← BitVec.toNat_inj, ← BitVec.toNat_inj]
  refine and_congr_right' ?_
  simp only [TimeCounter.hours] at hnext ⊢
  simp
  omega

theorem hourModulus_pos (c : CounterId) : 0 < hourModulus c := by cases c <;> decide

/-- INCH leaves two hour digits that read the next hours of 24 or 100. -/
theorem incHour_digits {c : CounterId} {t : TimeCounter} (h : t.InRange c) :
    (incHour c t).h1.toNat < 10 ∧ (incHour c t).h10.toNat < 10 ∧
      (incHour c t).hours = (t.hours + 1) % hourModulus c := by
  have hwrap := wraps24_iff_hours h
  by_cases hw : wraps24 c (hourPlusOne t) = true
  · obtain ⟨rfl, h24⟩ := hwrap.mp hw
    rw [incHour_of_wraps _ t hw, h24]
    exact ⟨by simp, by simp, by simp [TimeCounter.hours, hourModulus]⟩
  · obtain ⟨hn1, hn10, hnext⟩ := hourPlusOne_hours h
    obtain ⟨-, -, -, -, -, hhours⟩ := h
    rw [incHour_of_not_wraps c t hw]
    refine ⟨hn1, hn10, hnext.trans ?_⟩
    cases c with
    | clock =>
      have h24 : t.hours + 1 ≠ 24 := fun h => hw (hwrap.mpr ⟨rfl, h⟩)
      simp only [hourModulus] at hhours ⊢
      omega
    | timer => rfl

theorem incHour_inRange {c : CounterId} {t : TimeCounter} (h : t.InRange c) : (incHour c t).InRange c := by
  obtain ⟨hn1, hn10, hhours⟩ := incHour_digits h
  obtain ⟨hsec, hm1, hm10, -⟩ := h
  exact ⟨by simpa using hsec, by simpa using hm1, by simpa using hm10, hn1, hn10,
    hhours ▸ Nat.mod_lt _ (hourModulus_pos c)⟩

theorem hours_incHour {c : CounterId} {t : TimeCounter} (h : t.InRange c) :
    (incHour c t).hours = (t.hours + 1) % hourModulus c := by
  obtain ⟨-, -, hhours⟩ := incHour_digits h
  exact hhours

@[simp] theorem minutes_incHour (c : CounterId) (t : TimeCounter) : (incHour c t).minutes = t.minutes := by
  simp [TimeCounter.minutes]

/-- Settles O42. -/
theorem inchCountsHoursModuloTheWrap : Obligations.InchCountsHoursModuloTheWrap := fun c s h =>
  ⟨incHour c (s.counter c), exec_inch c s, incHour_inRange h, incHour_sec .., incHour_m1 .., incHour_m10 ..,
    hours_incHour h⟩

/-! ### INCM as a number -/

/-- The counter within its hour: minutes 00, the other fields kept. -/
def TimeCounter.clearMinutes (t : TimeCounter) : TimeCounter := { t with m1 := 0, m10 := 0 }

@[simp] theorem clearMinutes_m1 (t : TimeCounter) : t.clearMinutes.m1 = 0 := rfl
@[simp] theorem clearMinutes_m10 (t : TimeCounter) : t.clearMinutes.m10 = 0 := rfl
@[simp] theorem clearMinutes_hours (t : TimeCounter) : t.clearMinutes.hours = t.hours := rfl
@[simp] theorem clearMinutes_minutes (t : TimeCounter) : t.clearMinutes.minutes = 0 := by simp [TimeCounter.minutes]

theorem clearMinutes_inRange {c : CounterId} {t : TimeCounter} (h : t.InRange c) : t.clearMinutes.InRange c := by
  obtain ⟨hsec, -, -, hhour⟩ := h
  exact ⟨hsec, by simp, by simp, hhour⟩

/-- INCM by the minutes as a number: below 59 the next minute of the same hour; at 59 minutes 00, of the next hour if
it ripples. Only the ranges of the minute digits matter. -/
theorem incMinute_number (c : CounterId) (r : Bool) {t : TimeCounter} (h1 : t.m1.toNat < 10) (h10 : t.m10.toNat < 6) :
    (t.minutes < 59 ∧ ∃ m1 m10 : Digit, incMinute c r t = { t with m1 := m1, m10 := m10 } ∧ m1.toNat < 10 ∧
        m10.toNat < 6 ∧ (incMinute c r t).minutes = t.minutes + 1) ∨
    (t.minutes = 59 ∧ incMinute c r t = if r then incHour c t.clearMinutes else t.clearMinutes) := by
  unfold TimeCounter.minutes
  rcases incMinute_cases c r t with ⟨hc1, he⟩ | ⟨hc1, hc10, he⟩ | ⟨hc1, hc10, rfl, he⟩ | ⟨hc1, hc10, rfl, he⟩ <;> rw [he]
  · have hm1 := (digitCarry_false_iff _).mp hc1
    refine .inl ⟨by omega, _, _, rfl, ?_⟩
    simp only [toNat_stored, plusOne_eq]
    omega
  · have hm1 := (digitCarry_iff _).mp hc1
    have hm10 := (tenMinuteCarry_false_iff _).mp hc10
    refine .inl ⟨by omega, _, _, rfl, ?_⟩
    simp only [toNat_stored, plusOne_eq, BitVec.ofNat_eq_ofNat]
    omega
  · have hm1 := (digitCarry_iff _).mp hc1
    have hm10 := (tenMinuteCarry_iff _).mp hc10
    exact .inr ⟨by omega, rfl⟩
  · have hm1 := (digitCarry_iff _).mp hc1
    have hm10 := (tenMinuteCarry_iff _).mp hc10
    exact .inr ⟨by omega, rfl⟩

theorem incMinute_inRange {c : CounterId} (r : Bool) {t : TimeCounter} (h : t.InRange c) :
    (incMinute c r t).InRange c := by
  have hclear := clearMinutes_inRange h
  obtain ⟨hsec, hm1, hm10, hhour⟩ := h
  rcases incMinute_number c r hm1 hm10 with ⟨-, m1, m10, he, hn1, hn10, -⟩ | ⟨-, he⟩ <;> rw [he]
  · exact ⟨hsec, hn1, hn10, hhour⟩
  · split
    · exact incHour_inRange hclear
    · exact hclear

theorem minutes_incMinute {c : CounterId} (r : Bool) {t : TimeCounter} (h : t.InRange c) :
    (incMinute c r t).minutes = (t.minutes + 1) % 60 := by
  obtain ⟨-, hm1, hm10, -⟩ := h
  rcases incMinute_number c r hm1 hm10 with ⟨hlt, m1, m10, -, -, -, hm⟩ | ⟨h59, he⟩
  · omega
  · rw [he, h59]
    split <;> simp

theorem hours_incMinute {c : CounterId} (r : Bool) {t : TimeCounter} (h : t.InRange c) :
    (incMinute c r t).hours = if r = true ∧ t.minutes = 59 then (t.hours + 1) % hourModulus c else t.hours := by
  have hclear := clearMinutes_inRange h
  obtain ⟨-, hm1, hm10, -⟩ := h
  rcases incMinute_number c r hm1 hm10 with ⟨hlt, m1, m10, he, -⟩ | ⟨h59, he⟩ <;> rw [he]
  · rw [if_neg (by omega)]
    rfl
  · rw [h59]
    cases r with
    | false => rfl
    | true => exact hours_incHour hclear

/-- Settles O41. -/
theorem incmCountsMinutesModuloSixty : Obligations.IncmCountsMinutesModuloSixty := fun c r s h =>
  ⟨incMinute c r (s.counter c), exec_incm c r s, incMinute_inRange r h, incMinute_sec .., minutes_incMinute r h,
    hours_incMinute r h⟩

/-! ### INCS as a number -/

/-- The counter at the start of its minute. -/
def TimeCounter.clearSeconds (t : TimeCounter) : TimeCounter := { t with sec := 0 }

@[simp] theorem clearSeconds_sec (t : TimeCounter) : t.clearSeconds.sec = 0 := rfl
@[simp] theorem clearSeconds_minutes (t : TimeCounter) : t.clearSeconds.minutes = t.minutes := rfl
@[simp] theorem clearSeconds_hours (t : TimeCounter) : t.clearSeconds.hours = t.hours := rfl

theorem clearSeconds_inRange {c : CounterId} {t : TimeCounter} (h : t.InRange c) : t.clearSeconds.InRange c := by
  obtain ⟨-, hrest⟩ := h
  exact ⟨by simp, hrest⟩

/-- INCS by the seconds as a number: below 59 the next second of the same minute, at 59 INCM with ripple from second 0. -/
theorem incSecond_number (c : CounterId) {t : TimeCounter} (h : t.sec.toNat < 60) :
    (t.sec.toNat < 59 ∧ ∃ sec : Seconds, incSecond c t = { t with sec := sec } ∧ sec.toNat = t.sec.toNat + 1) ∨
    (t.sec.toNat = 59 ∧ incSecond c t = incMinute c true t.clearSeconds) := by
  rcases incSecond_cases c t with ⟨hc, he⟩ | ⟨hc, he⟩
  · have hsec := (secondCarry_false_iff _).mp hc
    refine .inl ⟨by omega, _, he, ?_⟩
    rw [toNat_stored, plusOne_eq]
    omega
  · exact .inr ⟨(secondCarry_iff _).mp hc, he⟩

theorem incSecond_inRange {c : CounterId} {t : TimeCounter} (h : t.InRange c) : (incSecond c t).InRange c := by
  have hclear := clearSeconds_inRange h
  obtain ⟨hsec, hrest⟩ := h
  rcases incSecond_number c hsec with ⟨hlt, sec, he, hs⟩ | ⟨-, he⟩ <;> rw [he]
  · exact ⟨by simp only [hs]; omega, hrest⟩
  · exact incMinute_inRange true hclear

theorem minutes_lt_sixty {c : CounterId} {t : TimeCounter} (h : t.InRange c) : t.minutes < 60 := by
  obtain ⟨-, hm1, hm10, -⟩ := h
  unfold TimeCounter.minutes
  omega

/-- The last second of the last hour is the one before 00:00:00. -/
theorem total_incSecond {c : CounterId} {t : TimeCounter} (h : t.InRange c) :
    (incSecond c t).total = (t.total + 1) % (hourModulus c * 3600) := by
  have hmin := minutes_lt_sixty h
  have hclear := clearSeconds_inRange h
  obtain ⟨hsec, -, -, -, -, hhours⟩ := h
  rcases incSecond_number c hsec with ⟨hlt, sec, he, hs⟩ | ⟨h59, he⟩ <;> rw [he]
  · have hsame : ({ t with sec := sec } : TimeCounter).total = t.total + 1 := by
      simp only [TimeCounter.total, TimeCounter.hours, TimeCounter.minutes]
      omega
    rw [hsame, Nat.mod_eq_of_lt]
    simp only [TimeCounter.total]
    omega
  · have hm := minutes_incMinute true hclear
    have hh := hours_incMinute true hclear
    have hs : (incMinute c true t.clearSeconds).sec.toNat = 0 := by rw [incMinute_sec]; rfl
    simp only [clearSeconds_minutes, clearSeconds_hours, true_and] at hm hh
    simp only [TimeCounter.total, hm, hh, hs, h59]
    cases c <;> simp only [hourModulus] at hhours ⊢ <;> split <;> omega

/-- Settles O40. -/
theorem incsCountsSecondsModuloTheWrap : Obligations.IncsCountsSecondsModuloTheWrap := fun c s h =>
  ⟨incSecond c (s.counter c), exec_incs c s, incSecond_inRange h, total_incSecond h⟩

/-! ### Every operation keeps both counters in their ranges -/

/-- Both counters are well-formed (10 R27). -/
def State.CountersInRange (s : State) : Prop := ∀ c, (s.counter c).InRange c

theorem countersInRange_iff (s : State) :
    s.CountersInRange ↔ s.clock.InRange .clock ∧ s.timer.InRange .timer :=
  ⟨fun h => ⟨h .clock, h .timer⟩, fun ⟨hclock, htimer⟩ c => by cases c; exacts [hclock, htimer]⟩

theorem zero_inRange (c : CounterId) : TimeCounter.zero.InRange c := by cases c <;> decide

theorem State.CountersInRange.setCounter {s : State} (h : s.CountersInRange) {c : CounterId} {v : TimeCounter}
    (hv : v.InRange c) : (s.setCounter c v).CountersInRange := by
  intro d
  by_cases hd : d = c
  · subst hd
    rwa [counter_setCounter]
  · rw [counter_setCounter_ne s c d v hd]
    exact h d

theorem State.CountersInRange.clearClockSeconds {s : State} (h : s.CountersInRange) :
    s.clearClockSeconds.CountersInRange := h.setCounter (c := .clock) (clearSeconds_inRange (h .clock))

theorem State.CountersInRange.clearTimer {s : State} (h : s.CountersInRange) : s.clearTimer.CountersInRange :=
  h.setCounter (c := .timer) (zero_inRange .timer)

theorem State.CountersInRange.sample {s : State} (h : s.CountersInRange) (i : SwitchId) (p : Bool) :
    (s.sample i p).CountersInRange := fun c => by
  rw [State.sample, counter_setHist]
  exact h c

theorem State.CountersInRange.toggleMode {s : State} (h : s.CountersInRange) : s.toggleMode.CountersInRange := by
  rcases toggleMode_cases s with ⟨-, he⟩ | ⟨-, he⟩ | ⟨-, he⟩ | ⟨-, he⟩ <;> rw [he]
  · exact h.clearTimer
  all_goals exact h

theorem State.CountersInRange.switchAction {s : State} (h : s.CountersInRange) (i : SwitchId) :
    (s.switchAction i).CountersInRange := by
  cases i with
  | hourAdjust => exact h.clearClockSeconds.setCounter (incHour_inRange (h.clearClockSeconds .clock))
  | minuteAdjust => exact h.clearClockSeconds.setCounter (incMinute_inRange false (h.clearClockSeconds .clock))
  | modeSwitch => exact h.toggleMode

theorem State.CountersInRange.after {s : State} (h : s.CountersInRange) (i : Instr) :
    (after i s).CountersInRange := by
  cases i with
  | incs c => exact h.setCounter (incSecond_inRange (h c))
  | incm c r => exact h.setCounter (incMinute_inRange r (h c))
  | inch c => exact h.setCounter (incHour_inRange (h c))
  | clrt => exact h.clearTimer
  | clrs => exact h.clearClockSeconds
  | samp j p => exact h.sample j p
  | sws j =>
    change (s.sampleSwitch j).CountersInRange
    rcases sampleSwitch_cases s j with ⟨-, he⟩ | ⟨-, he⟩ <;> rw [he]
    · exact (h.sample j _).switchAction j
    · exact h.sample j _
  | tick =>
    change s.takeTick.CountersInRange
    rcases takeTick_cases s with ⟨c, -, he⟩ | ⟨-, he⟩ <;> rw [he]
    · exact h.setCounter (incSecond_inRange (h c))
    · exact h
  | adjh => exact h.switchAction .hourAdjust
  | adjm => exact h.switchAction .minuteAdjust
  | togl => exact h.toggleMode
  | wrd pos =>
    change (s.showDigit pos).CountersInRange
    rcases showDigit_cases s pos with ⟨c, -, he⟩ | ⟨-, he⟩ <;> rw [he] <;> exact h
  | ldm | sel _ | dsl _ | wrb | hld _ => exact h

/-- Settles O43. -/
theorem everyOperationKeepsTheCountersInRange : Obligations.EveryOperationKeepsTheCountersInRange := by
  intro i s t hclock htimer hexec
  rw [exec_next_iff] at hexec
  exact (countersInRange_iff t).mp (hexec ▸ ((countersInRange_iff s).mpr ⟨hclock, htimer⟩).after i)

/-! ### Repeated increments -/

/-- An operation that only rewrites counter `c` by `f`, performed `n` times, rewrites it by `f` that often. -/
theorem performAll_replicate_counter {i : Instr} {c : CounterId} {f : TimeCounter → TimeCounter}
    (h : ∀ s, exec i s = .next (s.setCounter c (f (s.counter c)))) (n : Nat) (s : State) :
    performAll (List.replicate n i) s = .next (s.setCounter c (f^[n] (s.counter c))) := by
  induction n generalizing s with
  | zero => simp [performAll]
  | succ n ih => simp [List.replicate_succ, performAll, h, ih]

/-- Counting the seconds up through 59 is one INCM with ripple from second 0. -/
theorem iterate_incSecond (c : CounterId) {n : Nat} {t : TimeCounter} (h : n + t.sec.toNat = 59) :
    (incSecond c)^[n + 1] t = incMinute c true t.clearSeconds := by
  induction n generalizing t with
  | zero =>
    rcases incSecond_number c (t := t) (by omega) with ⟨hlt, -⟩ | ⟨-, he⟩
    · omega
    · exact he
  | succ n ih =>
    rw [Function.iterate_succ_apply]
    rcases incSecond_number c (t := t) (by omega) with ⟨-, sec, he, hs⟩ | ⟨h59, -⟩
    · rw [he, ih (by simp only [hs]; omega)]
      rfl
    · omega

/-- Settles O44. -/
theorem sixtySecondsMakeOneMinute : Obligations.SixtySecondsMakeOneMinute := by
  intro c s h
  obtain ⟨hsec, -⟩ := h
  refine ⟨_, exec_incm_setCounter c true s _, ?_⟩
  obtain ⟨n, hn⟩ : ∃ n, n + (s.counter c).sec.toNat = 59 := ⟨59 - (s.counter c).sec.toNat, by omega⟩
  rw [show 60 - (s.counter c).sec.toNat = n + 1 by omega, performAll_replicate_counter (exec_incs c),
    iterate_incSecond c hn]
  rfl

/-- Counting the minutes up through 59 with ripple is one INCH from minute 00. -/
theorem iterate_incMinute (c : CounterId) {n : Nat} {t : TimeCounter} (h1 : t.m1.toNat < 10) (h10 : t.m10.toNat < 6)
    (h : n + t.minutes = 59) : (incMinute c true)^[n + 1] t = incHour c t.clearMinutes := by
  induction n generalizing t with
  | zero =>
    rcases incMinute_number c true h1 h10 with ⟨hlt, -⟩ | ⟨-, he⟩
    · omega
    · exact he
  | succ n ih =>
    rw [Function.iterate_succ_apply]
    rcases incMinute_number c true h1 h10 with ⟨-, m1, m10, he, hn1, hn10, hm⟩ | ⟨h59, -⟩
    · rw [he] at hm ⊢
      rw [ih hn1 hn10 (by omega)]
      rfl
    · omega

theorem minutes_eq_zero_iff (t : TimeCounter) : t.minutes = 0 ↔ t.m1 = 0 ∧ t.m10 = 0 := by
  simp only [TimeCounter.minutes, ← BitVec.toNat_inj, BitVec.ofNat_eq_ofNat, BitVec.toNat_ofNat]
  omega

theorem clearMinutes_eq_self {t : TimeCounter} (h1 : t.m1 = 0) (h10 : t.m10 = 0) : t.clearMinutes = t := by
  cases t
  subst h1 h10
  rfl

/-- Settles O45. -/
theorem sixtyMinutesMakeOneHour : Obligations.SixtyMinutesMakeOneHour := by
  intro c s h
  obtain ⟨hm1, hm10⟩ := (minutes_eq_zero_iff _).mp h
  refine ⟨_, exec_inch c s, ?_⟩
  rw [performAll_replicate_counter (exec_incm c true), iterate_incMinute c (by simp [hm1]) (by simp [hm10]) (by omega),
    clearMinutes_eq_self hm1 hm10]

end Sys2Proof.Machine
end

section
/-! SUPPORT. The proofs of the statements about what the operations leave alone (spec 10 R26 to R35, 42 R120, 90 C8): one
frame lemma per register over all operations, from the frame lemmas of the shared operations; then the mode cycle and the
colon (41 R112, R114). -/

namespace Sys2Proof.Machine

/-- Settles O23. -/
theorem registerWritesAreDisjoint : Obligations.RegisterWritesAreDisjoint :=
  ⟨fun _ _ => ⟨rfl, rfl, rfl, rfl⟩, fun _ _ => ⟨rfl, rfl, rfl⟩, fun _ => ⟨rfl, rfl, rfl⟩⟩

/-! ### The phase is not read -/

theorem toggleMode_ph_update (s : State) (ph : Phase) :
    ({ s with ph := ph } : State).toggleMode = { s.toggleMode with ph := ph } := by
  simp only [State.toggleMode]
  split_ifs <;> rfl

theorem switchAction_ph_update (s : State) (i : SwitchId) (ph : Phase) :
    ({ s with ph := ph } : State).switchAction i = { s.switchAction i with ph := ph } := by
  cases i with
  | hourAdjust | minuteAdjust => rfl
  | modeSwitch => exact toggleMode_ph_update s ph

theorem hist_ph_update (s : State) (i : SwitchId) (ph : Phase) : ({ s with ph := ph } : State).hist i = s.hist i := by
  cases i <;> rfl

theorem sample_ph_update (s : State) (i : SwitchId) (p : Bool) (ph : Phase) :
    ({ s with ph := ph } : State).sample i p = { s.sample i p with ph := ph } := by
  cases i <;> rfl

theorem sampleSwitch_ph_update (s : State) (i : SwitchId) (ph : Phase) :
    ({ s with ph := ph } : State).sampleSwitch i = { s.sampleSwitch i with ph := ph } := by
  have hlevel : ({ s with ph := ph } : State).swPressedAt i = s.swPressedAt i := rfl
  simp only [State.sampleSwitch, hlevel, sample_ph_update, hist_ph_update, switchAction_ph_update]
  split_ifs <;> rfl

theorem takeTick_ph_update (s : State) (ph : Phase) :
    ({ s with ph := ph } : State).takeTick = { s.takeTick with ph := ph } := by
  simp only [State.takeTick]
  cases counterOfMode s.mode with
  | none => rfl
  | some c => cases c <;> rfl

theorem showDigit_ph_update (s : State) (pos : DigitPos) (ph : Phase) :
    ({ s with ph := ph } : State).showDigit pos = { s.showDigit pos with ph := ph } := by
  simp only [State.showDigit]
  cases counterOfMode s.smode with
  | none => rfl
  | some c => cases c <;> rfl

/-- No operation reads the phase: it only passes through. -/
theorem after_ph_update (i : Instr) (s : State) (ph : Phase) :
    after i { s with ph := ph } = { after i s with ph := ph } := by
  cases i with
  | incs c | incm c _ | inch c => cases c <;> rfl
  | samp j p => exact sample_ph_update s j p ph
  | sws j => exact sampleSwitch_ph_update s j ph
  | tick => exact takeTick_ph_update s ph
  | togl => exact toggleMode_ph_update s ph
  | wrd pos => exact showDigit_ph_update s pos ph
  | clrt | clrs | adjh | adjm | ldm | sel _ | dsl _ | wrb | hld _ => rfl

/-- Settles O37. -/
theorem noOperationMovesThePhaseOrThePorts : Obligations.NoOperationMovesThePhaseOrThePorts := by
  intro i s t hexec
  obtain rfl := (exec_next_iff i s t).mp hexec
  refine ⟨after_ph i s, after_ports i s, after_cmdFire i s, after_params i s, after_draws i s, fun ph => ?_⟩
  rw [exec_eq_after, after_ph_update]

/-! ### The control registers and the outputs -/

/-- The adjust switches act on `clock` only. -/
theorem switchAction_adjust {i : SwitchId} (hi : i ≠ .modeSwitch) (s : State) :
    (s.switchAction i).mode = s.mode ∧ (s.switchAction i).colonEn = s.colonEn ∧ (s.switchAction i).timer = s.timer := by
  cases i with
  | hourAdjust => exact ⟨adjustHour_mode s, adjustHour_colonEn s, adjustHour_timer s⟩
  | minuteAdjust => exact ⟨adjustMinute_mode s, adjustMinute_colonEn s, adjustMinute_timer s⟩
  | modeSwitch => exact absurd rfl hi

theorem sampleSwitch_adjust {i : SwitchId} (hi : i ≠ .modeSwitch) (s : State) :
    (s.sampleSwitch i).mode = s.mode ∧ (s.sampleSwitch i).colonEn = s.colonEn ∧ (s.sampleSwitch i).timer = s.timer := by
  rcases sampleSwitch_cases s i with ⟨-, he⟩ | ⟨-, he⟩ <;> rw [he]
  · simpa using switchAction_adjust hi (s.sample i (s.swPressedAt i))
  · simp

/-- Only TOGL, by itself or fired by SWS 2, moves the mode and the colon. -/
theorem after_mode_colonEn {i : Instr} (htogl : i ≠ .togl) (hsws : i ≠ .sws .modeSwitch) (s : State) :
    (after i s).mode = s.mode ∧ (after i s).colonEn = s.colonEn := by
  cases i with
  | togl => exact absurd rfl htogl
  | sws j =>
    have hj : j ≠ .modeSwitch := fun h => hsws (h ▸ rfl)
    obtain ⟨hmode, hcolon, -⟩ := sampleSwitch_adjust hj s
    exact ⟨hmode, hcolon⟩
  | _ => simp [after]

theorem after_ldm_smode (s : State) : (after .ldm s).smode = s.mode := rfl

theorem after_smode {i : Instr} (hi : i ≠ .ldm) (s : State) : (after i s).smode = s.smode := by
  cases i with
  | ldm => exact absurd rfl hi
  | _ => simp [after]

/-- What an operation makes of the select lines. -/
def dselAfter (i : Instr) (dsel : BitVec 4) : BitVec 4 :=
  match i with
  | .sel pos => dsel ||| selectBit pos
  | .dsl pos => dsel &&& ~~~selectBit pos
  | _ => dsel

theorem after_dsel (i : Instr) (s : State) : (after i s).dsel = dselAfter i s.dsel := by
  cases i with
  | _ => simp [after, dselAfter]

theorem after_bcd {i : Instr} (hwrd : ∀ pos, i ≠ .wrd pos) (hwrb : i ≠ .wrb) (s : State) :
    (after i s).bcd = s.bcd := by
  cases i with
  | wrd pos => exact absurd rfl (hwrd pos)
  | wrb => exact absurd rfl hwrb
  | _ => simp [after]

/-- Settles O38. -/
theorem controlRegistersHaveTheirWriters : Obligations.ControlRegistersHaveTheirWriters := by
  intro i s t hexec
  obtain rfl := (exec_next_iff i s t).mp hexec
  refine ⟨fun htogl hsws => after_mode_colonEn htogl hsws s, fun hldm => after_smode hldm s, fun hsel => ?_,
    fun hwrd hwrb => after_bcd hwrd hwrb s⟩
  rw [after_dsel]
  cases i with
  | sel pos => exact absurd rfl (hsel pos).1
  | dsl pos => exact absurd rfl (hsel pos).2
  | _ => rfl

/-! ### The counters -/

theorem counterOfMode_eq_clock_iff (m : ModeBits) : counterOfMode m = some .clock ↔ m = modeClock := by
  rcases counterOfMode_cases m with ⟨rfl, h⟩ | ⟨rfl, h⟩ | ⟨h0, -, h⟩ <;> simp_all

theorem counterOfMode_eq_timer_iff (m : ModeBits) : counterOfMode m = some .timer ↔ m = modeTimer := by
  rcases counterOfMode_cases m with ⟨rfl, h⟩ | ⟨rfl, h⟩ | ⟨-, h1, h⟩ <;> simp_all

theorem takeTick_timer {s : State} (h : s.mode ≠ modeTimer) : s.takeTick.timer = s.timer := by
  rcases takeTick_cases s with ⟨c, hc, he⟩ | ⟨-, he⟩ <;> rw [he]
  cases c with
  | clock => rfl
  | timer => exact absurd ((counterOfMode_eq_timer_iff _).mp hc) h

theorem takeTick_clock {s : State} (h : s.mode ≠ modeClock) : s.takeTick.clock = s.clock := by
  rcases takeTick_cases s with ⟨c, hc, he⟩ | ⟨-, he⟩ <;> rw [he]
  cases c with
  | clock => exact absurd ((counterOfMode_eq_clock_iff _).mp hc) h
  | timer => rfl

theorem toggleMode_timer {s : State} (h : s.mode ≠ modeClock) : s.toggleMode.timer = s.timer := by
  rcases toggleMode_cases s with ⟨hm, -⟩ | ⟨-, he⟩ | ⟨-, he⟩ | ⟨-, he⟩
  · exact absurd hm h
  all_goals rw [he]

theorem sampleSwitch_mode_timer {s : State} (h : s.mode ≠ modeClock) : (s.sampleSwitch .modeSwitch).timer = s.timer := by
  rcases sampleSwitch_cases s .modeSwitch with ⟨-, he⟩ | ⟨-, he⟩ <;> rw [he]
  · exact toggleMode_timer h
  · simp

theorem sampleSwitch_mode_clock (s : State) : (s.sampleSwitch .modeSwitch).clock = s.clock := by
  rcases sampleSwitch_cases s .modeSwitch with ⟨-, he⟩ | ⟨-, he⟩ <;> rw [he]
  · exact toggleMode_clock _
  · simp

/-- Settles O39, one clause per counter and one for the histories. -/
theorem countersAndHistoriesHaveTheirWriters : Obligations.CountersAndHistoriesHaveTheirWriters := by
  intro i s t hexec
  obtain rfl := (exec_next_iff i s t).mp hexec
  refine ⟨fun hincs hincm hinch hclrt htick htogl => ?_,
    fun hincs hincm hinch hclrs htick hadjh hadjm hhour hminute => ?_, fun j hsamp hsws => ?_⟩
  · cases i with
    | incs c | inch c | incm c r => cases c <;> simp_all [after, State.mapCounter]
    | clrt => exact absurd rfl hclrt
    | tick => exact takeTick_timer (htick rfl)
    | togl => exact toggleMode_timer (htogl (.inl rfl))
    | sws k =>
      by_cases hk : k = .modeSwitch
      · subst hk
        exact sampleSwitch_mode_timer (htogl (.inr rfl))
      · obtain ⟨-, -, htimer⟩ := sampleSwitch_adjust hk s
        exact htimer
    | _ => simp [after]
  · cases i with
    | incs c | inch c | incm c r => cases c <;> simp_all [after, State.mapCounter]
    | clrs => exact absurd rfl hclrs
    | adjh => exact absurd rfl hadjh
    | adjm => exact absurd rfl hadjm
    | tick => exact takeTick_clock (htick rfl)
    | sws k =>
      cases k with
      | hourAdjust => exact absurd rfl hhour
      | minuteAdjust => exact absurd rfl hminute
      | modeSwitch => exact sampleSwitch_mode_clock s
    | _ => simp [after]
  · cases i with
    | samp k p =>
      have hjk : j ≠ k := fun h => hsamp p (h ▸ rfl)
      exact hist_setHist_ne s k j _ hjk
    | sws k =>
      have hjk : j ≠ k := fun h => hsws (h ▸ rfl)
      exact sampleSwitch_hist_ne s k j hjk
    | _ => cases j <;> simp [after]

/-! ### The mode cycle and the colon -/

/-- A sequence of operations runs through, each from the state the one before it leaves. -/
theorem performAll_eq (is : List Instr) (s : State) : performAll is s = .next (is.foldl (fun t i => after i t) s) := by
  induction is generalizing s with
  | nil => rfl
  | cons i rest ih => simp [performAll, exec_eq_after, ih]

@[simp] theorem zero_total : TimeCounter.zero.total = 0 := by decide

/-- Settles O46, by following the three transitions. -/
theorem threeTogglesAreACycle : Obligations.ThreeTogglesAreACycle := by
  intro s h
  have h1 : after .togl s = { s with timer := .zero, mode := modeTimer } := by
    simp [after, State.toggleMode, State.clearTimer, h]
  have h2 : after .togl (after .togl s) = { s with timer := .zero, colonEn := false, mode := modeOff } := by
    rw [h1]
    simp [after, State.toggleMode, State.setColon]
  have h3 : after .togl (after .togl (after .togl s)) = { s with timer := .zero, colonEn := true, mode := modeClock } := by
    rw [h2]
    simp [after, State.toggleMode, State.setColon]
  refine ⟨⟨_, (performAll_eq [.togl] s).trans (congrArg _ h1), rfl, zero_total, rfl⟩,
    ⟨_, (performAll_eq [.togl, .togl] s).trans (congrArg _ h2), rfl, rfl⟩,
    (performAll_eq [.togl, .togl, .togl] s).trans (congrArg _ (h3.trans ?_))⟩
  rw [modeClock, ← h]
  rfl

/-- Each transition of the mode cycle moves the colon with the mode. -/
theorem toggleMode_colonFollowsMode {s : State} (h : s.ColonFollowsMode) : s.toggleMode.ColonFollowsMode := by
  obtain ⟨hle, hcolon⟩ := h
  rcases toggleMode_cases s with ⟨hm, he⟩ | ⟨hm, he⟩ | ⟨-, he⟩ | ⟨-, he⟩ <;> rw [he]
  · refine ⟨by simp, ?_⟩
    simp [hcolon, hm]
  · exact ⟨by simp, by simp⟩
  · exact ⟨by simp, by simp⟩
  · exact ⟨hle, hcolon⟩

theorem State.ColonFollowsMode.of_eq {s t : State} (h : s.ColonFollowsMode) (hmode : t.mode = s.mode)
    (hcolon : t.colonEn = s.colonEn) : t.ColonFollowsMode := by
  unfold State.ColonFollowsMode
  rwa [hmode, hcolon]

theorem after_colonFollowsMode {s : State} (h : s.ColonFollowsMode) (i : Instr) : (after i s).ColonFollowsMode := by
  by_cases htogl : i = .togl
  · subst htogl
    exact toggleMode_colonFollowsMode h
  by_cases hsws : i = .sws .modeSwitch
  · subst hsws
    have hsample := h.of_eq (sample_mode s .modeSwitch (s.swPressedAt .modeSwitch)) (sample_colonEn s ..)
    change (s.sampleSwitch .modeSwitch).ColonFollowsMode
    rcases sampleSwitch_cases s .modeSwitch with ⟨-, he⟩ | ⟨-, he⟩ <;> rw [he]
    · exact toggleMode_colonFollowsMode hsample
    · exact hsample
  obtain ⟨hmode, hcolon⟩ := after_mode_colonEn htogl hsws s
  exact h.of_eq hmode hcolon

theorem atReset_colonFollowsMode (p : Params) (n : Nat) : (State.atReset p n).ColonFollowsMode :=
  ⟨by simp [State.atReset], by simp [State.atReset]⟩

/-- Settles O47: each agent's step is the reset, or one operation with the mode and the colon it leaves. -/
theorem everyStepKeepsTheColonWithTheMode : Obligations.EveryStepKeepsTheColonWithTheMode := by
  intro s t h hstep
  rcases step_next_cases hstep with ⟨-, rfl⟩ | ⟨-, -, rfl⟩ | ⟨-, -, -, i, -, rfl⟩ | ⟨-, -, -, w, i, -, -, rfl⟩
  · exact atReset_colonFollowsMode _ _
  · exact (after_colonFollowsMode h .tick).of_eq rfl rfl
  · exact (after_colonFollowsMode h i).of_eq rfl rfl
  · exact (after_colonFollowsMode h i).of_eq rfl rfl

end Sys2Proof.Machine
end

section
/-! SUPPORT. The proofs of the statements about the agents (spec 20 R62, 30 R80, 42 R120, 60 R168, 70 R190): what a step is
when the reset, the tick, a command or the scanner has its turn. -/

namespace Sys2Proof.Machine

/-! ### The end of a step -/

/-- A step that keeps no command pending ends with all ports drawn anew. -/
theorem endStep_false (s : State) (fire : Bool) :
    s.endStep fire false = { s with ports := s.drawnPorts, cmdFire := fire, draws := s.draws + 1 } := rfl

/-- A tick's step keeps a pending command on the port. -/
theorem endStep_true (s : State) (fire : Bool) :
    s.endStep fire true =
      { s with
        ports := { s.drawnPorts with
          cmdValid := s.ports.cmdValid || s.drawnPorts.cmdValid
          cmd := if s.ports.cmdValid then s.ports.cmd else s.drawnPorts.cmd }
        cmdFire := fire
        draws := s.draws + 1 } := by
  cases h : s.ports.cmdValid <;> simp [State.endStep, h]

/-- An operation does not change what the environment will draw. -/
theorem drawnPorts_after (i : Instr) (s : State) : (after i s).drawnPorts = s.drawnPorts := by
  simp [State.drawnPorts]

/-! ### The command port -/

theorem step_of_command {s : State} {i : Instr} (hrst : s.ports.rst = false) (htick : s.ports.tick = false)
    (hcmd : s.ports.cmdValid = true) (hi : decode s.ports.cmd = .op i) :
    step s = .next ((after i s).endStep (fireResult i s) false) := by
  simp [step, hrst, htick, hcmd, commandStep, hi, perform_eq]

/-- Settles O24. -/
theorem commandPortStepPerformsTheDecodedWord : Obligations.CommandPortStepPerformsTheDecodedWord := by
  intro s i hrst htick hcmd hi
  refine ⟨after i s, exec_eq_after i s, after_ph i s, ?_⟩
  rw [step_of_command hrst htick hcmd hi, endStep_false, drawnPorts_after, after_draws]

/-- SWS, whatever its switch does, leaves the history that its sample gave. -/
theorem fireResult_sws (j : SwitchId) (s : State) :
    fireResult (.sws j) s = decide ((after (.sws j) s).hist j = 0xF000) := by
  refine Bool.eq_iff_iff.mpr ((fires_iff _).trans ?_)
  rw [decide_eq_true_iff, after, sampleSwitch_hist]

theorem fireResult_samp_after (j : SwitchId) (p : Bool) (s : State) :
    fireResult (.samp j p) s = decide ((after (.samp j p) s).hist j = 0xF000) := by
  rw [fireResult_samp, after, sample_hist]

/-- Settles O25: the port shows the operation's result. -/
theorem commandPortReportsFire : Obligations.CommandPortReportsFire := by
  intro s t i hrst htick hcmd hi hstep
  rw [step_of_command hrst htick hcmd hi] at hstep
  obtain rfl : (after i s).endStep (fireResult i s) false = t := by injection hstep
  cases i with
  | samp j p => simp only [endStep_cmdFire, hist_endStep, fireResult_samp_after]
  | sws j => simp only [endStep_cmdFire, hist_endStep, fireResult_sws]
  | _ => rfl

/-- Settles O31: a reserved word stops the command step, and the sequencer has none. -/
theorem reservedCommandIsRefused : Obligations.ReservedCommandIsRefused := by
  refine ⟨fun s why hrst htick hcmd hwhy => ?_, fun d ph w hw => exists_op_of_sequencerWord hw⟩
  simp [step, hrst, htick, hcmd, commandStep, hwhy]

/-! ### The scanner -/

/-- Settles O26. -/
theorem scannerStepPerformsTheSequencerWord : Obligations.ScannerStepPerformsTheSequencerWord := by
  intro s w i hrst htick hcmd hw hi
  refine ⟨after i s, exec_eq_after i s, ?_⟩
  rw [step_of_scanner hrst htick hcmd hw hi, endStep_false]
  simp [State.drawnPorts]

/-- Settles O32: past `ph` 28 the table has no row. -/
theorem phaseWithoutRowIsRefused : Obligations.PhaseWithoutRowIsRefused := by
  intro s hrst htick hcmd hph
  have hnone := (sequencerWord_eq_none_iff s.params.offDigit s.ph).mpr hph
  simp [step, hrst, htick, hcmd, scannerStep, hnone]

/-! ### The tick and the reset -/

theorem step_of_tick {s : State} (hrst : s.ports.rst = false) (htick : s.ports.tick = true) :
    step s = .next (s.takeTick.endStep (Config.freeFire s.draws) true) := by
  simp [step, hrst, htick, tickStep, perform_eq, after]

/-- Settles O28. -/
theorem tickIsPerformedFirst : Obligations.TickIsPerformedFirst := by
  intro s hrst htick
  refine ⟨s.takeTick, exec_tick s, takeTick_ph s, takeTick_smode s, takeTick_mode s, ?_⟩
  have hdrawn : s.takeTick.drawnPorts = s.drawnPorts := drawnPorts_after .tick s
  rw [step_of_tick hrst htick, endStep_true, hdrawn, takeTick_ports, takeTick_draws]

theorem step_of_reset {s : State} (hrst : s.ports.rst = true) : step s = .next (State.atReset s.params s.draws) := by
  simp [step, hrst, resetStep]

/-- The digits of the seed time fit their fields (00 R8). -/
theorem seedCounter_number (d : Seed) :
    (seedCounter d).hours = d.hours ∧ (seedCounter d).h1.toNat < 10 ∧ (seedCounter d).m10.toNat = d.m10 ∧
      (seedCounter d).m1.toNat = d.m1 ∧ (seedCounter d).sec.toNat = d.sec := by
  obtain ⟨hours, m10, m1, sec⟩ := d
  simp only [seedCounter, TimeCounter.hours, BitVec.toNat_ofNat]
  omega

/-- Settles O29. -/
theorem resetStepGivesTheResetValues : Obligations.ResetStepGivesTheResetValues := by
  intro s hrst
  refine ⟨_, step_of_reset hrst, ?_⟩
  obtain ⟨hhours, hh1, hm10, hm1, hsec⟩ := seedCounter_number s.params.seed
  exact ⟨hhours, hh1, hm10, hm1, hsec, rfl, rfl, rfl, rfl, rfl, rfl, rfl, rfl, rfl, rfl⟩

/-- Settles O30. -/
theorem resetStateHoldsTheResetValues : Obligations.ResetStateHoldsTheResetValues := by
  obtain ⟨hhours, hh1, hm10, hm1, hsec⟩ := seedCounter_number Config.params.seed
  exact ⟨hhours, hh1, hm10, hm1, hsec, rfl, rfl, rfl, rfl, rfl, rfl, rfl, rfl, rfl, rfl⟩

/-! ### The switch levels -/

/-- Every step ends with the pins of its draw, compared with the active levels. -/
theorem step_next_swPressed {s t : State} (h : step s = .next t) : t.ports.swPressed = s.drawnPorts.swPressed := by
  rcases step_next_cases h with ⟨-, rfl⟩ | ⟨-, -, rfl⟩ | ⟨-, -, -, i, -, rfl⟩ | ⟨-, -, -, w, i, -, -, rfl⟩
  · rfl
  all_goals simp [State.drawnPorts]

/-- A bit of the logical level: the pin agrees with the active level (20 R55). -/
theorem getLsbD_pressedLevels (active pins : BitVec 3) (i : SwitchId) :
    (pressedLevels active pins).getLsbD i.num = (pins.getLsbD i.num == active.getLsbD i.num) := by
  have hi : i.num < 3 := by cases i <;> decide
  simp only [pressedLevels, BitVec.getLsbD_not, BitVec.getLsbD_xor, hi]
  cases pins.getLsbD i.num <;> cases active.getLsbD i.num <;> rfl

/-- Settles O33. -/
theorem pressedLevelsFollowThePinPolarity : Obligations.PressedLevelsFollowThePinPolarity := by
  intro s t i hstep
  rw [State.swPressedAt, step_next_swPressed hstep]
  exact getLsbD_pressedLevels _ _ i

end Sys2Proof.Machine
end

section
/-! SUPPORT. The proofs of the debouncer's statements about runs of samples (spec 43 R153 to R157): the history after a list
of samples, bit by bit, and what it takes to be the fire pattern. -/

namespace Sys2Proof.Machine

/-- The history `h` after the samples `recent`, the newest first. -/
def historyAfter (h : Hist) (recent : List Bool) : Hist := recent.foldr (fun p g => shiftSample g p) h

@[simp] theorem historyAfter_nil (h : Hist) : historyAfter h [] = h := rfl

@[simp] theorem historyAfter_cons (h : Hist) (p : Bool) (recent : List Bool) :
    historyAfter h (p :: recent) = shiftSample (historyAfter h recent) p := rfl

/-- SAMP, performed for a list of samples with the oldest first, only rewrites that one history. -/
theorem performAll_samp (i : SwitchId) (ps : List Bool) (s : State) :
    performAll (ps.map (.samp i ·)) s = .next (s.setHist i (historyAfter (s.hist i) ps.reverse)) := by
  induction ps generalizing s with
  | nil => simp [performAll]
  | cons p ps ih =>
    simp only [List.map_cons, performAll, exec_samp, ih, hist_setHist, setHist_setHist, historyAfter, List.reverse_cons,
      List.foldr_append, List.foldr_cons, List.foldr_nil]

/-- Below the forced bits, bit `k` of the history is the `k`-th newest sample, 0 for pressed; past the samples it is the
old history's, moved up. -/
theorem historyAfter_bit (h : Hist) (recent : List Bool) {k : Nat} (hk : k < 13) :
    (historyAfter h recent).getLsbD k =
      match recent[k]? with
      | some p => !p
      | none => h.getLsbD (k - recent.length) := by
  induction recent generalizing k with
  | nil => simp
  | cons p recent ih =>
    rw [historyAfter_cons, shiftSample_bit _ _ k (by omega), decide_eq_false (by omega), Bool.false_or]
    cases k with
    | zero => rfl
    | succ k => simpa using ih (by omega)

/-- A history that has just taken a sample fires exactly when its bits 11 to 0 are 0 and bit 12 is 1; bits 15 to 13 are
forced (43 R150). -/
theorem shiftSample_eq_firePattern_iff (h : Hist) (p : Bool) :
    shiftSample h p = 0xF000 ↔ ∀ k < 13, (shiftSample h p).getLsbD k = decide (k = 12) := by
  have hpattern : ∀ k < 16, (0xF000 : Hist).getLsbD k = (decide (13 ≤ k) || decide (k = 12)) := by decide
  constructor
  · intro he k hk
    rw [he, hpattern k (by omega), decide_eq_false (by omega), Bool.false_or]
  · intro hbits
    refine BitVec.eq_of_getLsbD_eq fun k hk => ?_
    rw [hpattern k hk]
    by_cases h13 : 13 ≤ k
    · rw [shiftSample_bit h p k hk, decide_eq_true h13, Bool.true_or, Bool.true_or]
    · rw [hbits k (by omega), decide_eq_false h13, Bool.false_or]

/-- From an all-zero history the bits say which of the last thirteen samples there were and were not pressed. -/
theorem historyAfter_zero_bit (recent : List Bool) {k : Nat} (hk : k < 13) :
    (historyAfter 0 recent).getLsbD k = decide (recent[k]? = some false) := by
  rw [historyAfter_bit 0 recent hk]
  cases recent[k]? with
  | none => simp
  | some p => cases p <;> rfl

/-- The samples of one press, the newest first: twelve pressed ones after one that is not. -/
def pressSamples : List Bool := List.replicate 12 true ++ [false]

/-- The last thirteen samples are those of one press exactly when the thirteenth is the newest one not pressed. -/
theorem take_eq_pressSamples_iff (recent : List Bool) :
    recent.take 13 = pressSamples ↔ ∀ k < 13, (recent[k]? = some false ↔ k = 12) := by
  have hpress : ∀ k < 13, pressSamples[k]? = some (decide (k ≠ 12)) := by decide
  constructor
  · intro htake k hk
    rw [← List.getElem?_take_of_lt hk, htake, hpress k hk]
    simp
  · intro h
    obtain ⟨hlen, -⟩ := List.getElem?_eq_some_iff.mp ((h 12 (by omega)).mpr rfl)
    refine List.ext_getElem (by simp [pressSamples]; omega) fun k hk hkpress => ?_
    have hk13 : k < 13 := by simp at hk; omega
    have hiff := h k hk13
    rw [List.getElem?_eq_getElem (by omega), Option.some_inj] at hiff
    have hval := hpress k hk13
    rw [List.getElem?_eq_getElem hkpress, Option.some_inj] at hval
    rw [hval, List.getElem_take]
    cases hb : recent[k] <;> simp_all

/-- From an all-zero history the last sample fires exactly when it ends a press. -/
theorem historyAfter_zero_fires_iff (recent : List Bool) :
    historyAfter 0 recent = 0xF000 ↔ recent.take 13 = pressSamples := by
  cases recent with
  | nil => decide
  | cons p recent =>
    rw [take_eq_pressSamples_iff, historyAfter_cons, shiftSample_eq_firePattern_iff, ← historyAfter_cons]
    refine forall₂_congr fun k hk => ?_
    rw [historyAfter_zero_bit _ hk, decide_eq_decide]

/-- Settles O48. -/
theorem debouncerFiresOnTheTwelfthPressedSample : Obligations.DebouncerFiresOnTheTwelfthPressedSample := by
  intro i s ps hzero
  refine ⟨_, performAll_samp i ps s, ?_⟩
  rw [hist_setHist, hzero]
  exact historyAfter_zero_fires_iff ps.reverse

/-- After a sample that is not pressed, the bits of the pressed ones that follow are 0 and its own bit is 1. -/
theorem historyAfter_press_bit (h : Hist) (n : Nat) {k : Nat} (hk : k < 13) (hkn : k ≤ n) :
    (historyAfter h (List.replicate n true ++ [false])).getLsbD k = decide (k = n) := by
  rw [historyAfter_bit _ _ hk]
  rcases Nat.lt_or_eq_of_le hkn with hlt | rfl
  · simp [List.getElem?_append_left, hlt, hlt.ne]
  · simp

/-- After a sample that is not pressed the run's `n`-th pressed sample fires exactly when `n` is 12: at fewer its bit is
below 12 still, at more it has passed 12. -/
theorem historyAfter_press_fires_iff (h : Hist) (n : Nat) :
    historyAfter h (List.replicate n true ++ [false]) = 0xF000 ↔ n = 12 := by
  obtain ⟨p, recent, hcons⟩ : ∃ p recent, List.replicate n true ++ [false] = p :: recent := by
    cases n <;> simp [List.replicate_succ]
  have hfires : historyAfter h (List.replicate n true ++ [false]) = 0xF000 ↔
      ∀ k < 13, (historyAfter h (List.replicate n true ++ [false])).getLsbD k = decide (k = 12) := by
    rw [hcons]
    exact shiftSample_eq_firePattern_iff _ p
  rw [hfires]
  constructor
  · intro hbits
    have hmin := hbits (min n 12) (by omega)
    rw [historyAfter_press_bit h n (by omega) (by omega), decide_eq_decide] at hmin
    omega
  · rintro rfl k hk
    exact historyAfter_press_bit h 12 hk (by omega)

/-- Settles O49. -/
theorem onePressFiresOnce : Obligations.OnePressFiresOnce := by
  intro i s n
  have hsamples : Instr.samp i false :: List.replicate n (.samp i true) =
      (false :: List.replicate n true).map (.samp i ·) := by simp
  refine ⟨_, by rw [hsamples, performAll_samp], ?_⟩
  rw [hist_setHist, List.reverse_cons, List.reverse_replicate]
  exact historyAfter_press_fires_iff _ n

end Sys2Proof.Machine
end

section
/-! SUPPORT. The proofs of the statements about the block's own steps (spec 10 R40, 42 R120 to R134): the sequencer table as
operations, what a step without the test port is, and the scan invariant that each such step keeps. -/

namespace Sys2Proof.Machine

/-! ### The sequencer table as operations -/

/-- The operations of the sequencer table (42 R121), by `ph`; `d` is `OFF_DIGIT`. -/
def sequencerOps (d : DigitPos) : List Instr :=
  [ .ldm,
    .sel .tenHour, .wrd .tenHour, .hld .on, .sws .hourAdjust, .dsl .tenHour, .hld .off,
    .sel .oneHour, .wrd .oneHour, .hld .on, .sws .minuteAdjust, .dsl .oneHour, .hld .off,
    .sel .tenMinute, .wrd .tenMinute, .hld .on, .sws .modeSwitch, .dsl .tenMinute, .hld .off,
    .sel .oneMinute, .wrd .oneMinute, .hld .on, .dsl .oneMinute, .hld .off,
    .sel d, .wrb, .hld .poll, .sws .modeSwitch, .dsl d ]

/-- The operation of the scanner step at `ph`. -/
def sequencerOp (d : DigitPos) (ph : Phase) : Option Instr := (sequencerOps d)[ph.toNat]?

theorem decode_sequencerWords (d : DigitPos) : (sequencerWords d).map decode = (sequencerOps d).map .op := by
  cases d <;> rfl

/-- The operations are those the words of the table decode to. -/
theorem sequencerWord_decode (d : DigitPos) (ph : Phase) :
    (sequencerWord d ph).map decode = (sequencerOp d ph).map .op := by
  rw [sequencerWord, sequencerOp, ← List.getElem?_map, ← List.getElem?_map, decode_sequencerWords]

theorem sequencerOp_eq_some_iff (d : DigitPos) (ph : Phase) (i : Instr) :
    sequencerOp d ph = some i ↔ ∃ w, sequencerWord d ph = some w ∧ decode w = .op i := by
  have h := sequencerWord_decode d ph
  cases hw : sequencerWord d ph <;> cases hi : sequencerOp d ph <;> simp_all

theorem sequencerOp_eq_none_iff (d : DigitPos) (ph : Phase) : sequencerOp d ph = none ↔ 29 ≤ ph.toNat := by
  rw [← sequencerWord_eq_none_iff d ph, ← Option.map_eq_none_iff (f := Decoded.op), ← sequencerWord_decode,
    Option.map_eq_none_iff]

/-- What the registers are after the scanner's operation `i`: those that the operation leaves, `ph` moved on. -/
def afterScan (i : Instr) (s : State) : State := { after i s with ph := nextPhase s.ph (after i s).smode }

theorem step_of_sequencerOp {s : State} {i : Instr} (hrst : s.ports.rst = false) (htick : s.ports.tick = false)
    (hcmd : s.ports.ofBlock) (hop : sequencerOp s.params.offDigit s.ph = some i) :
    step s = .next ((afterScan i s).endStep (Config.freeFire s.draws) false) := by
  obtain ⟨w, hw, hi⟩ := (sequencerOp_eq_some_iff _ _ _).mp hop
  exact step_of_scanner hrst htick hcmd hw hi

/-- What a step without a command is: the reset, the tick, the sequencer's operation, or a phase past the table. -/
theorem blockStep_cases {s : State} (hcmd : s.ports.ofBlock) :
    (s.ports.rst = true ∧ step s = .next (State.atReset s.params s.draws)) ∨
    (s.ports.rst = false ∧ s.ports.tick = true ∧ step s = .next (s.takeTick.endStep (Config.freeFire s.draws) true)) ∨
    (s.ports.rst = false ∧ s.ports.tick = false ∧ ∃ i, sequencerOp s.params.offDigit s.ph = some i ∧
      step s = .next ((afterScan i s).endStep (Config.freeFire s.draws) false)) ∨
    (s.ports.rst = false ∧ s.ports.tick = false ∧ 29 ≤ s.ph.toNat ∧ step s = .refused (.noSequencerRow s.ph)) := by
  cases hrst : s.ports.rst with
  | true => exact .inl ⟨rfl, step_of_reset hrst⟩
  | false =>
    cases htick : s.ports.tick with
    | true => exact .inr (.inl ⟨rfl, rfl, step_of_tick hrst htick⟩)
    | false =>
      cases hop : sequencerOp s.params.offDigit s.ph with
      | none =>
        have hph := (sequencerOp_eq_none_iff _ _).mp hop
        exact .inr (.inr (.inr ⟨rfl, rfl, hph, phaseWithoutRowIsRefused s hrst htick hcmd hph⟩))
      | some i => exact .inr (.inr (.inl ⟨rfl, rfl, i, rfl, step_of_sequencerOp hrst htick hcmd hop⟩))

/-- A step without a reset or a command that answers `t`: the tick, or the sequencer's operation. -/
theorem blockStep_next_cases {s t : State} (hrst : s.ports.rst = false) (hcmd : s.ports.ofBlock) (hstep : step s = .next t) :
    (s.ports.tick = true ∧ t = s.takeTick.endStep (Config.freeFire s.draws) true) ∨
    (s.ports.tick = false ∧ ∃ i, sequencerOp s.params.offDigit s.ph = some i ∧
      t = (afterScan i s).endStep (Config.freeFire s.draws) false) := by
  rcases blockStep_cases hcmd with ⟨h, -⟩ | ⟨-, htick, he⟩ | ⟨-, htick, i, hop, he⟩ | ⟨-, -, -, he⟩
  · simp [hrst] at h
  all_goals rw [hstep] at he
  · exact .inl ⟨htick, Host.Outcome.next.inj he⟩
  · exact .inr ⟨htick, i, hop, Host.Outcome.next.inj he⟩
  · cases he

/-! ### What changes during a pass -/

/-- The sequencer performs LDM at the top of a pass and nowhere else. -/
theorem sequencerOp_ldm_iff (d : DigitPos) (ph : Phase) : sequencerOp d ph = some .ldm ↔ ph = 0 := by
  revert ph
  cases d <;> decide

/-- Past the top of a pass the sequencer's operation keeps `smode`. -/
theorem after_sequencerOp_smode {s : State} {i : Instr} (hop : sequencerOp s.params.offDigit s.ph = some i)
    (hph : s.ph ≠ 0) : (after i s).smode = s.smode :=
  after_smode (fun h => hph ((sequencerOp_ldm_iff _ _).mp (h ▸ hop))) s

/-- Settles O35. -/
theorem scanModeChangesOnlyAtTheTopOfAPass : Obligations.ScanModeChangesOnlyAtTheTopOfAPass := by
  intro s t hrst hcmd hwhen hstep
  rcases blockStep_next_cases hrst hcmd hstep with ⟨-, rfl⟩ | ⟨htick, i, hop, rfl⟩
  · exact takeTick_smode s
  · have hph : s.ph ≠ 0 := hwhen.resolve_right (by simp [htick])
    exact after_sequencerOp_smode hop hph

/-- The operations of an OFF pass do not sample the adjust switches. -/
theorem sequencerOp_offPass {d : DigitPos} {ph : Phase} {i : Instr} (hop : sequencerOp d ph = some i)
    (hph : 24 ≤ ph.toNat) : i ∈ ([.sel d, .wrb, .hld .poll, .sws .modeSwitch, .dsl d] : List Instr) := by
  have hdrop : i ∈ (sequencerOps d).drop 24 := by
    rw [List.mem_iff_getElem?]
    exact ⟨ph.toNat - 24, by rw [List.getElem?_drop, Nat.add_sub_cancel' hph]; exact hop⟩
  exact hdrop

/-- Settles O36. -/
theorem offPassLeavesTheAdjustHistories : Obligations.OffPassLeavesTheAdjustHistories := by
  intro s t hrst hcmd hph hstep
  rcases blockStep_next_cases hrst hcmd hstep with ⟨-, rfl⟩ | ⟨-, i, hop, rfl⟩
  · exact ⟨takeTick_histHour s, takeTick_histMinute s⟩
  · obtain ⟨-, -, hhist⟩ := countersAndHistoriesHaveTheirWriters i s _ (exec_eq_after i s)
    have hmem := sequencerOp_offPass hop hph
    exact ⟨hhist .hourAdjust (by rintro p rfl; simp at hmem) (by rintro rfl; simp at hmem),
      hhist .minuteAdjust (by rintro p rfl; simp at hmem) (by rintro rfl; simp at hmem)⟩

/-! ### The phase, the pass and the select lines -/

/-- `smode` fits the phase: a run pass runs under CLOCK or TIMER, an OFF pass under OFF (42 R133). -/
def PassFits (ph : Phase) (smode : ModeBits) : Prop :=
  (1 ≤ ph.toNat → ph.toNat ≤ 23 → smode ≠ modeOff) ∧ (24 ≤ ph.toNat → smode = modeOff)

/-- Past the top of a pass the phase moves on by one, or is 0 again. -/
theorem nextPhase_toNat {ph : Phase} (h0 : ph ≠ 0) (h28 : ph.toNat ≤ 28) (m : ModeBits) :
    (nextPhase ph m).toNat = if ph.toNat = 23 ∨ ph.toNat = 28 then 0 else ph.toNat + 1 := by
  have h23 : ph = 23 ↔ ph.toNat = 23 := BitVec.toNat_inj.symm
  have h28' : ph = 28 ↔ ph.toNat = 28 := BitVec.toNat_inj.symm
  rw [nextPhase_of_ne_zero h0]
  simp only [h23, h28']
  split
  · rfl
  · simp
    omega

theorem nextPhase_le {ph : Phase} (h28 : ph.toNat ≤ 28) (m : ModeBits) : (nextPhase ph m).toNat ≤ 28 := by
  by_cases h0 : ph = 0
  · rw [h0, nextPhase_zero]
    split <;> decide
  · rw [nextPhase_toNat h0 h28]
    split <;> omega

theorem passFits_nextPhase_zero (m : ModeBits) : PassFits (nextPhase 0 m) m := by
  rw [nextPhase_zero]
  split
  next h => exact ⟨by simp, fun _ => h⟩
  next h => exact ⟨fun _ _ => h, by simp⟩

/-- A pass runs to its end under the `smode` it began with. -/
theorem PassFits.nextPhase {ph : Phase} {m : ModeBits} (h : PassFits ph m) (h0 : ph ≠ 0) (h28 : ph.toNat ≤ 28) :
    PassFits (nextPhase ph m) m := by
  obtain ⟨hrun, hoff⟩ := h
  have hpos : 1 ≤ ph.toNat := Nat.one_le_iff_ne_zero.mpr fun h => h0 (BitVec.eq_of_toNat_eq h)
  unfold PassFits
  rw [nextPhase_toNat h0 h28]
  split
  · exact ⟨fun h => absurd h (by omega), fun h => absurd h (by omega)⟩
  · exact ⟨fun _ h => hrun hpos (by omega), fun h => hoff (by omega)⟩

/-- The operation at a phase makes the select lines those of the next phase. -/
theorem dselAfter_litAt {d : DigitPos} {ph : Phase} {i : Instr} (hop : sequencerOp d ph = some i) (m : ModeBits) :
    dselAfter i (litAt d ph) = litAt d (nextPhase ph m) := by
  have htable : ∀ (ph : Phase) (m : ModeBits), ∀ i ∈ sequencerOp d ph,
      dselAfter i (litAt d ph) = litAt d (nextPhase ph m) := by cases d <;> decide
  exact htable ph m i hop

/-- At most one select line is set (42 R133). -/
theorem litAt_mem (d : DigitPos) (ph : Phase) : litAt d ph ∈ ([0, 1, 2, 4, 8] : List (BitVec 4)) := by
  revert ph
  cases d <;> decide

/-! ### The histories -/

/-- Every sample forces the three top bits. -/
theorem histFormed_shiftSample (h : Hist) (p : Bool) : HistFormed (shiftSample h p) := by
  refine .inr (BitVec.eq_of_getLsbD_eq fun k hk => ?_)
  have hones : ∀ k < 3, (7 : BitVec 3).getLsbD k = true := by decide
  rw [BitVec.getLsbD_extractLsb', shiftSample_bit h p (13 + k) (by omega), hones k hk]
  simp [hk]

theorem after_histFormed {s : State} (h : ∀ j, HistFormed (s.hist j)) (i : Instr) (j : SwitchId) :
    HistFormed ((after i s).hist j) := by
  obtain ⟨-, -, hframe⟩ := countersAndHistoriesHaveTheirWriters i s _ (exec_eq_after i s)
  by_cases hsamp : ∃ p, i = .samp j p
  · obtain ⟨p, rfl⟩ := hsamp
    rw [after, sample_hist]
    exact histFormed_shiftSample _ p
  by_cases hsws : i = .sws j
  · subst hsws
    rw [after, sampleSwitch_hist]
    exact histFormed_shiftSample _ _
  rw [hframe j (not_exists.mp hsamp) hsws]
  exact h j

/-! ### The scan invariant -/

theorem hist_environment_update (s : State) (p : Ports) (fire : Bool) (n : Nat) (i : SwitchId) :
    ({ s with ports := p, cmdFire := fire, draws := n } : State).hist i = s.hist i := by cases i <;> rfl

/-- What the step puts into the model's own fields is no part of the scan invariant. -/
theorem State.ScanInv.withEnvironment {s : State} (h : s.ScanInv) (p : Ports) (fire : Bool) (n : Nat) :
    ({ s with ports := p, cmdFire := fire, draws := n } : State).ScanInv := by
  obtain ⟨⟨hclock, htimer, hmode, hsmode, hph, hdsel, hhist⟩, hrun, hoff, hlit, hcolon⟩ := h
  refine ⟨⟨hclock, htimer, hmode, hsmode, hph, hdsel, fun i => ?_⟩, hrun, hoff, hlit, hcolon⟩
  rw [hist_environment_update]
  exact hhist i

theorem State.ScanInv.withPorts {s : State} (h : s.ScanInv) (p : Ports) : ({ s with ports := p } : State).ScanInv :=
  h.withEnvironment p s.cmdFire s.draws

theorem State.ScanInv.endStep {s : State} (h : s.ScanInv) (fire held : Bool) : (s.endStep fire held).ScanInv :=
  h.withEnvironment _ fire _

theorem seedCounter_inRange (d : Seed) : (seedCounter d).InRange .clock := by
  obtain ⟨hhours, hh1, hm10, hm1, hsec⟩ := seedCounter_number d
  have hlt : (seedCounter d).hours < 24 := hhours ▸ d.hours.isLt
  refine ⟨hsec ▸ d.sec.isLt, hm1 ▸ d.m1.isLt, hm10 ▸ d.m10.isLt, hh1, ?_, hlt⟩
  unfold TimeCounter.hours at hlt
  omega

theorem atReset_scanInv (p : Params) (n : Nat) : (State.atReset p n).ScanInv where
  formed :=
    { clock := seedCounter_inRange p.seed
      timer := zero_inRange .timer
      mode := by simp [State.atReset]
      smode := by simp [State.atReset]
      ph := by simp [State.atReset]
      dsel := by simp [State.atReset]
      hist := fun i => .inl (by cases i <;> rfl) }
  runPass := by simp [State.atReset]
  offPass := by simp [State.atReset]
  lit := rfl
  colon := atReset_colonFollowsMode p n

/-- Settles O50. -/
theorem scanInvariantHoldsAtReset : Obligations.ScanInvariantHoldsAtReset := (atReset_scanInv _ _).withPorts _

/-- Any operation keeps what the scan invariant says of the counters, the histories and the mode; what it says of the pass
and the select lines is left to show, for the phase that follows. -/
theorem State.ScanInv.after {s : State} (h : s.ScanInv) (i : Instr) {ph : Phase} (hph : ph.toNat ≤ 28)
    (hpass : PassFits ph (after i s).smode) (hlit : (after i s).dsel = litAt s.params.offDigit ph) :
    ({ Machine.after i s with ph := ph } : State).ScanInv := by
  obtain ⟨⟨hclock, htimer, hmode, hsmode, -, -, hhist⟩, -, -, -, hcolon⟩ := h
  obtain ⟨hclock', htimer'⟩ := (countersInRange_iff _).mp (((countersInRange_iff s).mpr ⟨hclock, htimer⟩).after i)
  obtain ⟨hmode', hcolon'⟩ := after_colonFollowsMode hcolon i
  have hhist' := after_histFormed hhist i
  have hsmode' : (Machine.after i s).smode.toNat ≤ 2 := by
    by_cases hldm : i = .ldm
    · rw [hldm, after_ldm_smode]
      exact hmode
    · rw [after_smode hldm]
      exact hsmode
  obtain ⟨hrun', hoff'⟩ := hpass
  refine ⟨⟨hclock', htimer', hmode', hsmode', hph, ?_, fun j => ?_⟩, hrun', hoff', ?_, hmode', hcolon'⟩
  · change (Machine.after i s).dsel ∈ _
    rw [hlit]
    exact litAt_mem _ _
  · rw [hist_ph_update]
    exact hhist' j
  · change (Machine.after i s).dsel = litAt (Machine.after i s).params.offDigit ph
    rw [hlit, after_params]

theorem State.ScanInv.takeTick {s : State} (h : s.ScanInv) : s.takeTick.ScanInv := by
  have htick := h.after .tick h.formed.ph (by rw [after_smode (by simp)]; exact ⟨h.runPass, h.offPass⟩)
    (by rw [after_dsel]; exact h.lit)
  rwa [← after_ph .tick s] at htick

theorem State.ScanInv.afterScan {s : State} (h : s.ScanInv) {i : Instr}
    (hop : sequencerOp s.params.offDigit s.ph = some i) : (afterScan i s).ScanInv := by
  refine h.after i (nextPhase_le h.formed.ph _) ?_ (by rw [after_dsel, h.lit, dselAfter_litAt hop])
  by_cases h0 : s.ph = 0
  · rw [h0]
    exact passFits_nextPhase_zero _
  · rw [after_sequencerOp_smode hop h0]
    exact PassFits.nextPhase ⟨h.runPass, h.offPass⟩ h0 h.formed.ph

/-- Settles O51: reset, tick and sequencer operation each keep the invariant, which rules out a phase past the table. -/
theorem everyBlockStepKeepsTheScanInvariant : Obligations.EveryBlockStepKeepsTheScanInvariant := by
  intro s h hcmd
  rcases blockStep_cases hcmd with ⟨-, he⟩ | ⟨-, -, he⟩ | ⟨-, -, i, hop, he⟩ | ⟨-, -, hph, -⟩
  · exact ⟨_, he, atReset_scanInv _ _⟩
  · exact ⟨_, he, h.takeTick.endStep _ _⟩
  · exact ⟨_, he, (h.afterScan hop).endStep _ _⟩
  · have hle := h.formed.ph
    omega

/-! ### Runs of the block -/

/-- A run of the block from a state that meets the scan invariant is not refused and ends in one. -/
theorem runWith_scanInv {inputs : List Ports} (hblock : ∀ x ∈ inputs, x.ofBlock) {s : State} (h : s.ScanInv) :
    ∃ t, runWith inputs s = .next t ∧ t.ScanInv := by
  induction inputs generalizing s with
  | nil => exact ⟨s, rfl, h⟩
  | cons p rest ih =>
    obtain ⟨hp, hrest⟩ := List.forall_mem_cons.mp hblock
    obtain ⟨t, hstep, ht⟩ := everyBlockStepKeepsTheScanInvariant { s with ports := p } (h.withPorts p) hp
    simpa only [runWith, hstep] using ih hrest ht

/-- Settles O52. -/
theorem everyBlockRunIsWellFormed : Obligations.EveryBlockRunIsWellFormed := by
  intro p n inputs hblock
  obtain ⟨t, hrun, ht⟩ := runWith_scanInv hblock (atReset_scanInv p n)
  exact ⟨t, hrun, ht.formed⟩

end Sys2Proof.Machine
end

section
/-! SUPPORT. The proofs of the statements about the timer before its first use (spec 10 R39): two states that differ only in
a timer that neither `mode` nor `smode` selects take the same steps. -/

namespace Sys2Proof.Machine

/-- Two states are the same, or differ only in the value `v` of a timer that neither `mode` nor `smode` selects. -/
def AgreeButUnusedTimer (v : TimeCounter) (t u : State) : Prop :=
  u = t ∨ (t.mode ≠ modeTimer ∧ t.smode ≠ modeTimer ∧ u = { t with timer := v })

theorem AgreeButUnusedTimer.outputs {v : TimeCounter} {t u : State} (h : AgreeButUnusedTimer v t u) :
    u.outputs = t.outputs := by
  rcases h with rfl | ⟨-, -, rfl⟩ <;> rfl

theorem AgreeButUnusedTimer.endStep {v : TimeCounter} {t u : State} (h : AgreeButUnusedTimer v t u) (fire held : Bool) :
    AgreeButUnusedTimer v (t.endStep fire held) (u.endStep fire held) := by
  rcases h with rfl | ⟨hmode, hsmode, rfl⟩
  · exact .inl rfl
  · exact .inr ⟨hmode, hsmode, rfl⟩

/-! ### The operations of the sequencer and the tick -/

/-- Showing a digit reads the counter that `smode` selects, which is not the timer. -/
theorem showDigit_unusedTimer {s : State} (hsmode : s.smode ≠ modeTimer) (v : TimeCounter) (pos : DigitPos) :
    ({ s with timer := v } : State).showDigit pos = { s.showDigit pos with timer := v } := by
  simp only [State.showDigit]
  rcases counterOfMode_cases s.smode with ⟨-, hc⟩ | ⟨htimer, -⟩ | ⟨-, -, hc⟩
  · rw [hc]
    rfl
  · exact absurd htimer hsmode
  · rw [hc]

/-- A tick advances the counter that `mode` selects, which is not the timer. -/
theorem takeTick_unusedTimer {s : State} (hmode : s.mode ≠ modeTimer) (v : TimeCounter) :
    ({ s with timer := v } : State).takeTick = { s.takeTick with timer := v } := by
  simp only [State.takeTick]
  rcases counterOfMode_cases s.mode with ⟨-, hc⟩ | ⟨htimer, -⟩ | ⟨-, -, hc⟩
  · rw [hc]
    rfl
  · exact absurd htimer hmode
  · rw [hc]

/-- TOGL selects the timer only from CLOCK, where it zeroes it. -/
theorem toggleMode_unusedTimer {s : State} (hmode : s.mode ≠ modeTimer) (hsmode : s.smode ≠ modeTimer) (v : TimeCounter) :
    AgreeButUnusedTimer v s.toggleMode ({ s with timer := v } : State).toggleMode := by
  rcases toggleMode_cases s with ⟨hm, -⟩ | ⟨hm, -⟩ | ⟨hm, -⟩ | ⟨hm, -⟩
  · exact .inl (by simp [State.toggleMode, State.clearTimer, hm])
  · exact absurd hm hmode
  · exact .inr (by simpa [State.toggleMode, State.setColon, hm] using hsmode)
  · exact .inr (by simpa [State.toggleMode, hm] using hsmode)

theorem switchAction_unusedTimer {s : State} (hmode : s.mode ≠ modeTimer) (hsmode : s.smode ≠ modeTimer) (v : TimeCounter)
    (j : SwitchId) : AgreeButUnusedTimer v (s.switchAction j) (({ s with timer := v } : State).switchAction j) := by
  cases j with
  | hourAdjust => exact .inr ⟨(adjustHour_mode s).trans_ne hmode, (adjustHour_smode s).trans_ne hsmode, rfl⟩
  | minuteAdjust => exact .inr ⟨(adjustMinute_mode s).trans_ne hmode, (adjustMinute_smode s).trans_ne hsmode, rfl⟩
  | modeSwitch => exact toggleMode_unusedTimer hmode hsmode v

theorem sample_unusedTimer (s : State) (v : TimeCounter) (j : SwitchId) (p : Bool) :
    ({ s with timer := v } : State).sample j p = { s.sample j p with timer := v } := by
  cases j <;> rfl

theorem hist_timer_update (s : State) (v : TimeCounter) (j : SwitchId) :
    ({ s with timer := v } : State).hist j = s.hist j := by
  cases j <;> rfl

/-- Whether a switch fires does not depend on the timer. -/
theorem sampleSwitch_unusedTimer {s : State} (hmode : s.mode ≠ modeTimer) (hsmode : s.smode ≠ modeTimer) (v : TimeCounter)
    (j : SwitchId) : AgreeButUnusedTimer v (s.sampleSwitch j) (({ s with timer := v } : State).sampleSwitch j) := by
  have hmode' : (s.sample j (s.swPressedAt j)).mode ≠ modeTimer := (sample_mode ..).trans_ne hmode
  have hsmode' : (s.sample j (s.swPressedAt j)).smode ≠ modeTimer := (sample_smode ..).trans_ne hsmode
  have hlevel : ({ s with timer := v } : State).swPressedAt j = s.swPressedAt j := rfl
  simp only [State.sampleSwitch, hlevel, sample_unusedTimer, hist_timer_update]
  split
  · exact switchAction_unusedTimer hmode' hsmode' v j
  · exact .inr ⟨hmode', hsmode', rfl⟩

/-- The operations that the block's scanner performs (42 R121). -/
def Instr.ofScanner (i : Instr) : Bool :=
  match i with
  | .ldm | .sel _ | .dsl _ | .wrd _ | .wrb | .hld _ | .sws _ => true
  | _ => false

theorem ofScanner_of_sequencerOp {d : DigitPos} {ph : Phase} {i : Instr} (hop : sequencerOp d ph = some i) :
    Instr.ofScanner i = true := by
  have hall : ∀ i ∈ sequencerOps d, Instr.ofScanner i = true := by cases d <;> decide
  exact hall i (List.mem_of_getElem? hop)

theorem after_unusedTimer {s : State} (hmode : s.mode ≠ modeTimer) (hsmode : s.smode ≠ modeTimer) (v : TimeCounter)
    {i : Instr} (hi : Instr.ofScanner i = true) : AgreeButUnusedTimer v (after i s) (after i { s with timer := v }) := by
  cases i with
  | ldm => exact .inr ⟨hmode, hmode, rfl⟩
  | wrd pos =>
    exact .inr ⟨(showDigit_mode s pos).trans_ne hmode, (showDigit_smode s pos).trans_ne hsmode,
      showDigit_unusedTimer hsmode v pos⟩
  | sws j => exact sampleSwitch_unusedTimer hmode hsmode v j
  | sel _ | dsl _ | wrb | hld _ => exact .inr ⟨hmode, hsmode, rfl⟩
  | _ => cases hi

theorem afterScan_unusedTimer {s : State} (hmode : s.mode ≠ modeTimer) (hsmode : s.smode ≠ modeTimer) (v : TimeCounter)
    {i : Instr} (hi : Instr.ofScanner i = true) :
    AgreeButUnusedTimer v (afterScan i s) (afterScan i { s with timer := v }) := by
  unfold afterScan
  rcases after_unusedTimer hmode hsmode v hi with he | ⟨hmode', hsmode', he⟩ <;> rw [he]
  · exact .inl rfl
  · exact .inr ⟨hmode', hsmode', rfl⟩

/-! ### The steps -/

/-- A step of the block answers with either timer, or is refused with either for the same reason. -/
theorem step_unusedTimer {s : State} (hmode : s.mode ≠ modeTimer) (hsmode : s.smode ≠ modeTimer) (hcmd : s.ports.ofBlock)
    (v : TimeCounter) :
    (∃ t u, step s = .next t ∧ step { s with timer := v } = .next u ∧ AgreeButUnusedTimer v t u) ∨
    (29 ≤ s.ph.toNat ∧ ∃ r, step s = .refused r ∧ step { s with timer := v } = .refused r) := by
  rcases blockStep_cases hcmd with ⟨hrst, he⟩ | ⟨hrst, htick, he⟩ | ⟨hrst, htick, i, hop, he⟩ | ⟨hrst, htick, hph, he⟩
  · exact .inl ⟨_, _, he, step_of_reset hrst, .inl rfl⟩
  · have htimer : AgreeButUnusedTimer v s.takeTick ({ s with timer := v } : State).takeTick :=
      .inr ⟨(takeTick_mode s).trans_ne hmode, (takeTick_smode s).trans_ne hsmode, takeTick_unusedTimer hmode v⟩
    exact .inl ⟨_, _, he, step_of_tick hrst htick, htimer.endStep _ _⟩
  · have htimer := afterScan_unusedTimer hmode hsmode v (ofScanner_of_sequencerOp hop)
    exact .inl ⟨_, _, he, step_of_sequencerOp hrst htick hcmd hop, htimer.endStep _ _⟩
  · exact .inr ⟨hph, _, he, phaseWithoutRowIsRefused _ hrst htick hcmd hph⟩

/-- Settles O56. -/
theorem everyBlockStepKeepsTheTimerUnobserved : Obligations.EveryBlockStepKeepsTheTimerUnobserved := by
  intro s v hmode hsmode hph hcmd
  rcases step_unusedTimer hmode hsmode hcmd v with ⟨t, u, ht, hu, htimer⟩ | ⟨hpast, -⟩
  · exact ⟨t, u, ht, hu, htimer.outputs, htimer⟩
  · omega

/-- Settles O53, by induction on the inputs: after each step the states are equal, or still differ only in an unused
timer. -/
theorem timerBeforeItsFirstUseIsNotObserved : Obligations.TimerBeforeItsFirstUseIsNotObserved := by
  intro s v inputs hmode hsmode hblock
  induction inputs generalizing s with
  | nil => rfl
  | cons p rest ih =>
    obtain ⟨hp, hrest⟩ := List.forall_mem_cons.mp hblock
    rcases step_unusedTimer (s := { s with ports := p }) hmode hsmode hp v with ⟨t, u, ht, hu, htimer⟩ | ⟨-, r, ht, hu⟩
    · simp only [observedWith, ht, hu, htimer.outputs]
      rcases htimer with rfl | ⟨hmode', hsmode', rfl⟩
      · rfl
      · rw [ih t hmode' hsmode' hrest]
    · simp only [observedWith, ht, hu]

end Sys2Proof.Machine
end

section
/-! SUPPORT. The proofs of the statements about whole passes under quiet ports (spec 42 R121, R135, R137): the registers that
such a pass reads and shows make a small machine of their own, which a pass runs through from the top. -/

namespace Sys2Proof.Machine

/-- The registers that a pass reads or writes while no switch fires, and `OFF_DIGIT` and `OFF_VALUE`. -/
structure Display where
  clock : TimeCounter
  timer : TimeCounter
  mode : ModeBits
  smode : ModeBits
  colonEn : Bool
  dsel : BitVec 4
  bcd : Digit
  ph : Phase
  offDigit : DigitPos
  offValue : Digit

/-- The display registers of a state. -/
def State.display (s : State) : Display :=
  { clock := s.clock, timer := s.timer, mode := s.mode, smode := s.smode, colonEn := s.colonEn, dsel := s.dsel,
    bcd := s.bcd, ph := s.ph, offDigit := s.params.offDigit, offValue := s.params.offValue }

/-- What WRD puts on the bus: the digit of the counter that `smode` selects, or what was there. -/
def Display.shown (d : Display) (pos : DigitPos) : Digit :=
  match counterOfMode d.smode with
  | some .clock => d.clock.digit pos
  | some .timer => d.timer.digit pos
  | none => d.bcd

/-- A scanner operation on the display registers, no switch being pressed. -/
def Display.after (i : Instr) (d : Display) : Display :=
  match i with
  | .ldm => { d with smode := d.mode }
  | .wrd pos => { d with bcd := d.shown pos }
  | .wrb => { d with bcd := d.offValue }
  | i => { d with dsel := dselAfter i d.dsel }

/-- A quiet step of the scanner on the display registers; past the table's end it is the identity. -/
def Display.next (d : Display) : Display :=
  match sequencerOp d.offDigit d.ph with
  | some i => { d.after i with ph := nextPhase d.ph (d.after i).smode }
  | none => d

theorem Display.next_of_sequencerOp {d : Display} {i : Instr} (h : sequencerOp d.offDigit d.ph = some i) :
    d.next = { d.after i with ph := nextPhase d.ph (d.after i).smode } := by
  simp [Display.next, h]

/-- What the environment observes of the display registers (00 R16). -/
def Display.outputs (d : Display) : BitVec 4 × Digit × Bool := (d.dsel, d.bcd, d.colonEn)

/-- Quiet steps from `d` show `outs`, one output each, and end at `e`. -/
def Display.Runs (d : Display) (outs : List (BitVec 4 × Digit × Bool)) (e : Display) : Prop :=
  match outs with
  | [] => d = e
  | out :: rest => d.next.outputs = out ∧ d.next.Runs rest e

theorem Display.Runs.append {d e f : Display} {outs rest : List (BitVec 4 × Digit × Bool)} (h : d.Runs outs e)
    (hrest : e.Runs rest f) : d.Runs (outs ++ rest) f := by
  induction outs generalizing d with
  | nil => exact h ▸ hrest
  | cons out outs ih =>
    obtain ⟨hout, hruns⟩ := h
    exact ⟨hout, ih hruns⟩

/-! ### Quiet steps of the machine are steps of the display registers -/

/-- A sample that is not pressed does not fire: it shifts in a 1. -/
theorem fires_shiftSample_false (h : Hist) : fires (shiftSample h false) = false := by
  refine Bool.eq_false_iff.mpr fun hfires => ?_
  have hbit := shiftSample_bit h false 0 (by omega)
  rw [(fires_iff _).mp hfires] at hbit
  simp at hbit

theorem sampleSwitch_of_not_pressed {s : State} {i : SwitchId} (h : s.swPressedAt i = false) :
    s.sampleSwitch i = s.sample i false := by
  rcases sampleSwitch_cases s i with ⟨hfire, -⟩ | ⟨-, he⟩
  · simp [h, fires_shiftSample_false] at hfire
  · rw [he, h]

theorem display_after {s : State} (hquiet : ∀ j, s.swPressedAt j = false) {i : Instr} (hi : Instr.ofScanner i = true) :
    (after i s).display = s.display.after i := by
  cases i with
  | sws j =>
    change (s.sampleSwitch j).display = s.display
    rw [sampleSwitch_of_not_pressed (hquiet j)]
    cases j <;> rfl
  | wrd pos =>
    change (s.showDigit pos).display = { s.display with bcd := s.display.shown pos }
    unfold State.showDigit Display.shown
    rcases counterOfMode_cases s.smode with ⟨-, hc⟩ | ⟨-, hc⟩ | ⟨-, -, hc⟩ <;> simp [State.display, hc]
  | ldm | sel _ | dsl _ | wrb | hld _ => rfl
  | _ => cases hi

theorem display_afterScan {s : State} {d : Display} {i : Instr} (h : (after i s).display = d.after i) :
    (afterScan i s).display = { d.after i with ph := nextPhase s.ph (d.after i).smode } := by
  rw [← h]
  rfl

theorem step_quiet {s : State} (hph : s.ph.toNat ≤ 28) :
    ∃ t, step { s with ports := .quiet } = .next t ∧ t.display = s.display.next ∧ t.ph.toNat ≤ 28 := by
  cases hop : sequencerOp s.params.offDigit s.ph with
  | none =>
    have hpast := (sequencerOp_eq_none_iff _ _).mp hop
    omega
  | some i =>
    have hquiet : ∀ j, ({ s with ports := .quiet } : State).swPressedAt j = false := fun _ => BitVec.getLsbD_zero
    have hafter := display_after hquiet (ofScanner_of_sequencerOp hop)
    refine ⟨_, step_of_sequencerOp (s := { s with ports := .quiet }) rfl rfl rfl hop, ?_, nextPhase_le hph _⟩
    exact (display_afterScan hafter).trans (Display.next_of_sequencerOp (d := s.display) hop).symm

/-- Quiet steps from a phase of the table show and leave what the display registers do. -/
theorem run_quiet {s : State} {outs : List (BitVec 4 × Digit × Bool)} {e : Display} (hph : s.ph.toNat ≤ 28)
    (h : s.display.Runs outs e) :
    observedWith (List.replicate outs.length .quiet) s = outs ∧
      ∃ u, runWith (List.replicate outs.length .quiet) s = .next u ∧ u.display = e := by
  induction outs generalizing s with
  | nil => exact ⟨rfl, s, rfl, h⟩
  | cons out rest ih =>
    obtain ⟨t, hstep, hnext, hph'⟩ := step_quiet hph
    obtain ⟨hout, hruns⟩ := h
    rw [← hnext] at hout hruns
    obtain ⟨hobserved, u, hrun, hu⟩ := ih hph' hruns
    rw [List.length_cons, List.replicate_succ]
    refine ⟨?_, u, ?_, hu⟩
    · simp only [observedWith, hstep, hobserved, ← hout]
      rfl
    · simp only [runWith, hstep, hrun]

/-! ### The parts of a pass -/

/-- LDM at the top of a pass latches `smode` and branches on it to `p` (42 R122). -/
theorem runs_top {d : Display} (hph : d.ph = 0) (hdsel : d.dsel = 0) {p : Phase}
    (hp : p = if d.mode = modeOff then 24 else 1) :
    d.Runs [(0, d.bcd, d.colonEn)] { d with smode := d.mode, ph := p } := by
  obtain ⟨clock, timer, mode, smode, colonEn, dsel, bcd, ph, offDigit, offValue⟩ := d
  subst hph hdsel hp
  simp only [Display.Runs, Display.next, (sequencerOp_ldm_iff offDigit 0).mpr rfl, Display.after, nextPhase_zero]
  exact ⟨rfl, trivial⟩

/-- The pass shows counter `t`: the one `smode` selects. -/
def Display.Shows (d : Display) (t : TimeCounter) : Prop :=
  (counterOfMode d.smode = some .clock ∧ t = d.clock) ∨ (counterOfMode d.smode = some .timer ∧ t = d.timer)

theorem Display.Shows.shown_eq {d : Display} {t : TimeCounter} (h : d.Shows t) (pos : DigitPos) :
    d.shown pos = t.digit pos := by
  rcases h with ⟨hc, rfl⟩ | ⟨hc, rfl⟩ <;> simp [Display.shown, hc]

/-- Where the window of a digit begins in the run pass (42 R121). -/
def windowPhase (pos : DigitPos) : Phase :=
  match pos with
  | .tenHour => 1
  | .oneHour => 7
  | .tenMinute => 13
  | .oneMinute => 19

/-- A window of the run pass with a switch: six steps that show the digit under its own line. -/
theorem runs_window {d : Display} {t : TimeCounter} (hshow : d.Shows t) {pos : DigitPos} (hpos : pos ≠ .oneMinute)
    (hph : d.ph = windowPhase pos) (hdsel : d.dsel = 0) :
    let b := selectBit pos
    let x := t.digit pos
    let k := d.colonEn
    d.Runs [(b, d.bcd, k), (b, x, k), (b, x, k), (b, x, k), (0, x, k), (0, x, k)]
      { d with bcd := x, ph := windowPhase pos + 6 } := by
  obtain ⟨clock, timer, mode, smode, colonEn, dsel, bcd, ph, offDigit, offValue⟩ := d
  subst hph hdsel
  have hshown : ∀ line p, (⟨clock, timer, mode, smode, colonEn, line, bcd, p, offDigit, offValue⟩ : Display).shown pos =
      t.digit pos := fun _ _ => Display.Shows.shown_eq hshow pos
  cases pos with
  | oneMinute => exact absurd rfl hpos
  | _ => simp [Display.Runs, Display.next, windowPhase, sequencerOp, sequencerOps, Display.after, hshown, dselAfter,
      nextPhase, Display.outputs]

/-- The last window of the run pass samples no switch and ends the pass. -/
theorem runs_lastWindow {d : Display} {t : TimeCounter} (hshow : d.Shows t) (hph : d.ph = windowPhase .oneMinute)
    (hdsel : d.dsel = 0) :
    let b := selectBit .oneMinute
    let x := t.digit .oneMinute
    let k := d.colonEn
    d.Runs [(b, d.bcd, k), (b, x, k), (b, x, k), (0, x, k), (0, x, k)] { d with bcd := x, ph := 0 } := by
  obtain ⟨clock, timer, mode, smode, colonEn, dsel, bcd, ph, offDigit, offValue⟩ := d
  subst hph hdsel
  have hshown : ∀ line p, (⟨clock, timer, mode, smode, colonEn, line, bcd, p, offDigit, offValue⟩ : Display).shown
      .oneMinute = t.digit .oneMinute := fun _ _ => Display.Shows.shown_eq hshow .oneMinute
  simp [Display.Runs, Display.next, windowPhase, sequencerOp, sequencerOps, Display.after, hshown, dselAfter, nextPhase,
    Display.outputs]

/-- The window of the OFF pass shows the placeholder and ends the pass. -/
theorem runs_offWindow {d : Display} (hph : d.ph = 24) (hdsel : d.dsel = 0) :
    let b := selectBit d.offDigit
    let v := d.offValue
    let k := d.colonEn
    d.Runs [(b, d.bcd, k), (b, v, k), (b, v, k), (b, v, k), (0, v, k)] { d with bcd := v, ph := 0 } := by
  obtain ⟨clock, timer, mode, smode, colonEn, dsel, bcd, ph, offDigit, offValue⟩ := d
  subst hph hdsel
  simp [Display.Runs, Display.next, sequencerOp, sequencerOps, Display.after, dselAfter, nextPhase, Display.outputs]

/-! ### The passes -/

/-- A pass from a state at its top, as the statements speak of it: what is observed, and where the counters and the phase
are in the end. -/
theorem observed_of_runs {s : State} {outs : List (BitVec 4 × Digit × Bool)} {e : Display} (hph : s.ph = 0)
    (h : s.display.Runs outs e) (hend : e.ph = 0 ∧ e.clock = s.clock ∧ e.timer = s.timer) :
    observedWith (List.replicate outs.length .quiet) s = outs ∧
      ∃ u, runWith (List.replicate outs.length .quiet) s = .next u ∧ u.ph = 0 ∧ u.clock = s.clock ∧ u.timer = s.timer := by
  obtain ⟨hobserved, u, hrun, rfl⟩ := run_quiet (by simp [hph]) h
  exact ⟨hobserved, u, hrun, hend⟩

/-- After LDM the pass shows the counter that the mode selects. -/
theorem shows_counter {s : State} {c : CounterId} (hc : counterOfMode s.mode = some c) (bcd : Digit) (ph : Phase) :
    Display.Shows { s.display with smode := s.mode, bcd := bcd, ph := ph } (s.counter c) := by
  cases c with
  | clock => exact .inl ⟨hc, rfl⟩
  | timer => exact .inr ⟨hc, rfl⟩

/-- Settles O54: a run pass is LDM and its four windows. -/
theorem runPassShowsTheFourDigits : Obligations.RunPassShowsTheFourDigits := by
  intro s c hph hdsel hmode
  have hrun : s.mode ≠ modeOff := by cases c <;> simp [hmode]
  have hselected : counterOfMode s.mode = some c := by
    cases c with
    | clock => exact (counterOfMode_eq_clock_iff _).mpr hmode
    | timer => exact (counterOfMode_eq_timer_iff _).mpr hmode
  have hshow := shows_counter hselected
  have htop := runs_top (d := s.display) hph hdsel (if_neg hrun).symm
  have htenHour := htop.append (runs_window (hshow _ _) (pos := .tenHour) (by decide) rfl hdsel)
  have honeHour := htenHour.append (runs_window (hshow _ _) (pos := .oneHour) (by decide) rfl hdsel)
  have htenMinute := honeHour.append (runs_window (hshow _ _) (pos := .tenMinute) (by decide) rfl hdsel)
  have hpass := htenMinute.append (runs_lastWindow (hshow _ _) rfl hdsel)
  exact observed_of_runs hph hpass ⟨rfl, rfl, rfl⟩

/-- Settles O55: an OFF pass is LDM and its one window. -/
theorem offPassShowsThePlaceholder : Obligations.OffPassShowsThePlaceholder := by
  intro s hph hdsel hmode
  have htop := runs_top (d := s.display) hph hdsel (if_pos hmode).symm
  exact observed_of_runs hph (htop.append (runs_offWindow rfl hdsel)) ⟨rfl, rfl, rfl⟩

end Sys2Proof.Machine
end
